-- ==== Sys2Proof/Word.lean ====
section
/-! DEFINITION. The byte and the 32-bit argument word (00_scope.md R7; 30_encoding.md R60, R64). -/

namespace Sys2Proof

/-- A byte: an unsigned integer in 0..255, bit 7 the most significant (R7). -/
abbrev Byte := BitVec 8

/-- The argument of a command frame, a 32-bit unsigned integer (R64). -/
abbrev Argument := BitVec 32

end Sys2Proof
end

