-- ==== Sys2Proof/Config.lean ====
section
/-! DEFINITION. The parameters of the block (00_scope.md R5; 10_state.md R37): the sizes that fix types, and, as
constants without a body, the values the spec leaves OPEN. -/

namespace Sys2Proof.Config

/-- `CMD_BUF_BYTES`: capacity of `command_buffer` (R5). -/
abbrev cmdBufBytes : Nat := 32

/-- `STAGING_BYTES`: start token plus one block (R5). -/
abbrev stagingBytes : Nat := 513

/-- `IMAGE`: the byte the platform loads at each address of the backing store (R5, OPEN). Only addresses below
`STORE_BYTES` mean anything. DESIGN CHOICE, log 8: nothing can evaluate it, so a claim holds for every image. -/
opaque image : Nat → Byte

/-- `TX_OFFSET`: offset of the outgoing-data register (R5, OPEN; log 9). -/
opaque txOffset : Nat

/-- `BASE`: absolute address of the window (R5, OPEN; log 9). -/
opaque base : Nat

/-- The value from which `RX_OFFSET` is made (log 9). -/
opaque rxOffsetRaw : Nat

/-- The value from which `WINDOW_BYTES` is made (log 9). -/
opaque windowBytesRaw : Nat

/-- `RX_OFFSET`, "different from `TX_OFFSET`" (R5): any value but that one. -/
def rxOffset : Nat := if rxOffsetRaw = txOffset then txOffset + 1 else rxOffsetRaw

/-- `WINDOW_BYTES` (R5): any size that holds both registers, which stand "within the device's address window"
(20_memory.md R41). -/
def windowBytes : Nat := max windowBytesRaw (max txOffset rxOffset + 1)

end Sys2Proof.Config
end

