-- ==== Sys2Proof/Machine/State.lean ====
section
/-! DEFINITION. The state of the block (10_state.md R20), the operations the outside world asks of it (00_scope.md
R8), their results (R10), and the reasons a step can stop. -/

namespace Sys2Proof.Machine

/-- `state`, the frame tracker: nine values, no numeric encoding (10_state.md R21). -/
inductive CardState where
  | idle
  | ready
  | receivingCmd0
  | receivingCmd8
  | receivingCmd16
  | receivingCmd17
  | receivingAcmd41
  | receivingCmd55
  | receivingCmd58
  deriving DecidableEq, Repr

/-- The seven fatal causes (60_exceptions.md R160). -/
inductive FatalCause where
  | configError
  | unknownCommand
  | bufferOverflow
  | unknownDispatch
  | addressRange
  | frameOverrun
  | replyOverlap
  deriving DecidableEq, Repr

/-- The three classes of fatal conditions (60_exceptions.md R161). -/
inductive FatalClass where
  | configurationError
  | protocolViolation
  | addressingError
  deriving DecidableEq, Repr

/-- The diagnostic recorded with a cause (60_exceptions.md R160 column `info`, R166): the offending byte or stored
opcode, the block number, the image size found, or that the image is missing. -/
inductive FatalInfo where
  | byte (v : Byte)
  | blockNumber (n : Nat)
  | imageSize (found : Nat)
  | imageMissing
  deriving DecidableEq, Repr

/-- `Fatal(cause, info)` (00_scope.md R9). -/
structure Fatal where
  cause : FatalCause
  info : FatalInfo
  deriving DecidableEq, Repr

/-- The operations of the block (00_scope.md R8), and a load or a store of the host at an absolute address, which
the platform decodes into one of the first four (20_memory.md R41, R42). `bytes` is the width of the access. -/
inductive HostOp where
  | txWrite (v : Byte)
  | rxRead
  | otherWrite (offset : Nat) (v : Byte)
  | otherRead (offset : Nat)
  | store (address : Nat) (bytes : Nat) (data : Nat)
  | load (address : Nat) (bytes : Nat)
  | construct
  | deviceReset (image : Option (List Byte))
  deriving DecidableEq, Repr

/-- What an operation delivers to whoever invoked it (00_scope.md R10): nothing but its completion, a byte, a byte
widened to an access of `w` bits (20_memory.md R42), or a fatal. -/
inductive HostResult where
  | done
  | byte (b : Byte)
  | word (w : Nat) (v : BitVec w)
  | fatal (f : Fatal)
  deriving DecidableEq, Repr

/-- Which of the two platform operations have happened (70_reset_and_hazards.md R190; DEDUCED, log 13). -/
inductive Lifecycle where
  | absent
  | constructed
  | running
  deriving DecidableEq, Repr

/-- The backing store as the bytes in which it differs from `Config.image`, by rising address (log 8). -/
abbrev Memory := List Host.Cell

/-- The nine fields of 10_state.md R20, then the model's own four (log 1, 2, 3, 13). -/
structure State where
  /-- `state` (R21). -/
  state : CardState
  /-- `command_buffer` (R22). -/
  commandBuffer : Vector Byte Config.cmdBufBytes
  /-- `command_length`, 0..31 (R23). -/
  commandLength : Fin 32
  /-- `cmd8_reply_index`, 0..5 (R24). -/
  cmd8ReplyIndex : Fin 6
  /-- `cmd58_reply_index`, 0..5 (R25). -/
  cmd58ReplyIndex : Fin 6
  /-- `block_read_index` (R26): `none` is -1, `some i` is i in 0..512. -/
  blockReadIndex : Option (Fin 513)
  /-- `staging` (R27). -/
  staging : Vector Byte Config.stagingBytes
  /-- `backing_store` (R28). -/
  backingStore : Memory
  /-- `fault` (R29). -/
  fault : Option Fatal
  /-- The model's own: which platform operations have happened. -/
  lifecycle : Lifecycle
  /-- The model's own: the operations not yet performed, oldest first. -/
  pending : List HostOp
  /-- The model's own: the results delivered, newest first. -/
  delivered : List HostResult
  /-- The model's own: the durations in milliseconds with which `LATENCY_HOOK` was called, newest first. -/
  latencyCalls : List Nat
  deriving DecidableEq, Repr

/-- Why the machine stops. -/
inductive Fault where
  /-- Raised by `step` once `fault` is latched, with the latched fatal: no operation has a step then (60_exceptions.md
  R164, R165). Safe: the machine stops where the spec defines nothing. -/
  | halted (f : Fatal)
  /-- Raised by a reply whose cursor is past its last byte between operations, which 10_state.md R24, R25 and R26
  exclude. Safe: no run from reset reaches such a state (log 14). -/
  | cursorPastReply
  deriving DecidableEq, Repr

/-- What the model gives no meaning. -/
inductive Refusal where
  /-- Raised by an arm of `exec` whose instruction has no meaning yet; no arm does. Safe. -/
  | notModelled (mnemonic : String)
  /-- Raised by a load or store outside the window, "the platform's matter" (20_memory.md R45; log 12). Safe. -/
  | outsideWindow
  /-- Raised by an ill-formed access: no byte wide, or data wider than the access (log 12). Safe. -/
  | malformedAccess
  /-- Raised by a Construct or DeviceReset out of its place: "A model refuses a reset in the middle of a run"
  (70_reset_and_hazards.md R194; log 13). Safe. -/
  | resetOutOfPlace
  /-- Raised by a host operation before DeviceReset is over (70_reset_and_hazards.md R193; log 13). Safe. -/
  | trafficBeforeReset
  deriving DecidableEq, Repr

/-- The block after `Construct()` and `DeviceReset(IMAGE)` and before the first host operation (10_state.md R36).
The contents of the two buffers are unspecified there and no rule reads them: DESIGN CHOICE zeros, log 6 and 7. -/
def State.reset : State where
  state := .idle
  commandBuffer := Vector.replicate Config.cmdBufBytes 0
  commandLength := 0
  cmd8ReplyIndex := 0
  cmd58ReplyIndex := 0
  blockReadIndex := none
  staging := Vector.replicate Config.stagingBytes 0
  backingStore := []
  fault := none
  lifecycle := .running
  pending := []
  delivered := []
  latencyCalls := []

end Sys2Proof.Machine
end

