-- ==== Sys2Proof/Machine/Flags.lean ====
section
/-! DEFINITION. The block has no status flag, no condition code and no predicate register (10_state.md R32), so no
instruction computes one. What stands in their place are the predicates of R21 and R34, computed from the state. -/

namespace Sys2Proof.Machine

/-- The seven values whose name begins with `Receiving` (10_state.md R21). -/
def CardState.isReceiving : CardState → Bool
  | .idle => false
  | .ready => false
  | .receivingCmd0 => true
  | .receivingCmd8 => true
  | .receivingCmd16 => true
  | .receivingCmd17 => true
  | .receivingAcmd41 => true
  | .receivingCmd55 => true
  | .receivingCmd58 => true

/-- `ReplyActive()`: at least one cursor is not at rest (10_state.md R34). -/
def State.replyActive (s : State) : Bool :=
  decide (s.cmd8ReplyIndex ≠ 0) || decide (s.cmd58ReplyIndex ≠ 0) || decide (s.blockReadIndex ≠ none)

/-- `block_read_index` as the spec writes it, an integer in -1..512 (10_state.md R26). -/
def State.blockReadCursor (s : State) : Int :=
  match s.blockReadIndex with
  | none => -1
  | some i => i.val

end Sys2Proof.Machine
end

