-- ==== Sys2Proof/Machine/Literals.lean ====
section
/-! DEFINITION. The numeric literals of the spec in one table, so that an audit can change them in one place
(93_implementation_defined.md U9; UNVERIFIED, log 21). -/

namespace Sys2Proof.Machine.Literals

/-! Opcodes and filler (30_encoding.md R62). -/

def opCmd0 : Byte := 0x40
def opCmd8 : Byte := 0x48
def opCmd16 : Byte := 0x50
def opCmd17 : Byte := 0x51
def opAcmd41 : Byte := 0x69
def opCmd55 : Byte := 0x77
def opCmd58 : Byte := 0x7A

/-- `FILLER`, the bus idle byte in both directions (00_scope.md R5). -/
def filler : Byte := 0xFF

/-- `OPCODES` (10_state.md R33). -/
def opcodes : List Byte := [opCmd0, opCmd8, opCmd16, opCmd17, opAcmd41, opCmd55, opCmd58]

/-! Replies (10_state.md R33). -/

def cmd0Reply : Byte := 0x01
def cmd16Reply : Byte := 0x00
def cmd55Reply : Byte := 0x00
def acmd41Reply : Byte := 0x00

/-- `CMD8_REPLY`. -/
def cmd8Reply : Vector Byte 5 := #v[0x01, 0x00, 0x00, 0x01, 0xAA]

/-- `CMD58_REPLY`. -/
def cmd58Reply : Vector Byte 5 := #v[0x00, 0xC0, 0xFF, 0x80, 0x00]

/-- `START_TOKEN`, the first byte of a block-read reply. -/
def startToken : Byte := 0xFE

/-- What a read of a reserved offset returns (20_memory.md R45). -/
def reservedRead : Byte := 0x00

/-! Sizes and the latency (00_scope.md R5). -/

/-- `FRAME_BYTES`. -/
def frameBytes : Nat := 6

/-- `STORE_BYTES`, 4 MiB. -/
def storeBytes : Nat := 4194304

/-- `BLOCK_BYTES`. -/
def blockBytes : Nat := 512

/-- `SHORT_REPLY_BYTES`. -/
def shortReplyBytes : Nat := 5

/-- `LATENCY_MS`. -/
def latencyMs : Nat := 30

end Sys2Proof.Machine.Literals
end

