-- ==== Sys2Proof/Machine/Memory.lean ====
section
/-! DEFINITION. The backing store (20_memory.md R46 to R50): reading one byte, the canonical form of the list that
holds it, and the load of an image. -/

namespace Sys2Proof.Machine

/-- `StoreRead(a)` (00_scope.md R9): the listed byte, or the byte of `IMAGE` (10_state.md R36; log 8). Every address
the block reads is below `STORE_BYTES` by the range check of 42_block_read.md R142. -/
def Memory.byteAt : Memory → Nat → Byte
  | [], a => Config.image a
  | (k, b) :: m, a => if k = a then b else Memory.byteAt m a

/-- The canonical form from address `lo` on: addresses rise, lie in the store, and hold no byte equal to what an
unlisted address reads as. -/
def Memory.wfFrom (lo : Nat) : Memory → Bool
  | [] => true
  | (k, b) :: m =>
    decide (lo ≤ k) && decide (k < Literals.storeBytes) && decide (b ≠ Config.image k) && Memory.wfFrom (k + 1) m

/-- The canonical form. -/
def Memory.wf (m : Memory) : Bool := Memory.wfFrom 0 m

/-- One byte written, in canonical form. Only `DeviceReset` writes (20_memory.md R50). -/
def Memory.write : Memory → Nat → Byte → Memory
  | [], a, b => if b = Config.image a then [] else [(a, b)]
  | (k, c) :: m, a, b =>
    if a < k then (if b = Config.image a then (k, c) :: m else (a, b) :: (k, c) :: m)
    else if a = k then (if b = Config.image a then m else (a, b) :: m)
    else (k, c) :: Memory.write m a b

/-- Consecutive bytes written from address `a` up, as `DeviceReset` copies an image (70_reset_and_hazards.md
R192). -/
def Memory.load (m : Memory) (a : Nat) : List Byte → Memory
  | [] => m
  | b :: bs => Memory.load (Memory.write m a b) (a + 1) bs

end Sys2Proof.Machine
end

