-- ==== Sys2Proof/Syntax.lean ====
section
/-! DEFINITION. The instruction set, which is the command set (00_scope.md R1; 30_encoding.md R60, R62): one
constructor per row of spec/opcode_table.json. -/

namespace Sys2Proof

/-- The seven commands, each with the argument and the trailer byte of its frame, and the one-byte filler (R62). -/
inductive Instr where
  | cmd0 (arg : Argument) (trailer : Byte)
  | cmd8 (arg : Argument) (trailer : Byte)
  | cmd16 (arg : Argument) (trailer : Byte)
  | cmd17 (arg : Argument) (trailer : Byte)
  | acmd41 (arg : Argument) (trailer : Byte)
  | cmd55 (arg : Argument) (trailer : Byte)
  | cmd58 (arg : Argument) (trailer : Byte)
  | idle
  deriving DecidableEq, Repr

end Sys2Proof
end

