-- ==== Sys2Proof/Decode.lean ====
section
/-! DEFINITION. Decoding and encoding of host-to-card items (30_encoding.md R60 to R67) and the numbering of
spec/opcode_table.json (R60: byte 0 of a frame in bits [47:40]; log 18). -/

namespace Sys2Proof

open Machine.Literals

/-- Why bytes are no item: there are none; the first one is neither filler nor opcode (R67); the frame that it
opens is not complete (R60). -/
inductive DecodeError where
  | nothing
  | unknownCommand (first : Byte)
  | truncatedFrame (opcode : Byte)
  deriving DecidableEq, Repr

/-- `arg` of a frame: bytes 1 to 4, "byte 1 most significant" (R64). -/
def frameArgument (b1 b2 b3 b4 : Byte) : Argument := b1 ++ b2 ++ b3 ++ b4

/-- The command of a frame, from its opcode byte, compared whole (R62, R63). -/
def frameInstr (op : Byte) (arg : Argument) (trailer : Byte) : Option Instr :=
  if op = opCmd0 then some (.cmd0 arg trailer)
  else if op = opCmd8 then some (.cmd8 arg trailer)
  else if op = opCmd16 then some (.cmd16 arg trailer)
  else if op = opCmd17 then some (.cmd17 arg trailer)
  else if op = opAcmd41 then some (.acmd41 arg trailer)
  else if op = opCmd55 then some (.cmd55 arg trailer)
  else if op = opCmd58 then some (.cmd58 arg trailer)
  else none

/-- The first item of a byte sequence in the order of transmission, with the bytes after it (R61): `0xFF` is a
complete item of length 1, an opcode begins one of length 6 whose other bytes are taken whatever their values, any
other byte is refused. -/
def decode : List Byte → Except DecodeError (Instr × List Byte)
  | [] => .error .nothing
  | first :: rest =>
    if first = filler then .ok (.idle, rest)
    else if first ∉ opcodes then .error (.unknownCommand first)
    else
      match rest with
      | b1 :: b2 :: b3 :: b4 :: trailer :: after =>
        match frameInstr first (frameArgument b1 b2 b3 b4) trailer with
        | some i => .ok (i, after)
        | none => .error (.unknownCommand first)
      | _ => .error (.truncatedFrame first)

/-- The first byte of an item, by the table of R62. -/
def Instr.opcode : Instr → Byte
  | .cmd0 _ _ => opCmd0
  | .cmd8 _ _ => opCmd8
  | .cmd16 _ _ => opCmd16
  | .cmd17 _ _ => opCmd17
  | .acmd41 _ _ => opAcmd41
  | .cmd55 _ _ => opCmd55
  | .cmd58 _ _ => opCmd58
  | .idle => filler

/-- The six bytes of a frame, in the layout of R60. -/
def frameEncoding (op : Byte) (arg : Argument) (trailer : Byte) : List Byte :=
  [op, arg.extractLsb' 24 8, arg.extractLsb' 16 8, arg.extractLsb' 8 8, arg.extractLsb' 0 8, trailer]

/-- The bytes of an item in the order of transmission (R60). -/
def encode : Instr → List Byte
  | .cmd0 arg trailer => frameEncoding opCmd0 arg trailer
  | .cmd8 arg trailer => frameEncoding opCmd8 arg trailer
  | .cmd16 arg trailer => frameEncoding opCmd16 arg trailer
  | .cmd17 arg trailer => frameEncoding opCmd17 arg trailer
  | .acmd41 arg trailer => frameEncoding opAcmd41 arg trailer
  | .cmd55 arg trailer => frameEncoding opCmd55 arg trailer
  | .cmd58 arg trailer => frameEncoding opCmd58 arg trailer
  | .idle => [filler]

/-- Bytes as one number, the first byte most significant, as opcode_table.json numbers an item (R60). -/
def tableWord (bytes : List Byte) : Nat := bytes.foldl (fun w b => w * 256 + b.toNat) 0

/-- Byte `k` of a table word of `nbits` bits; bytes past its end are 0. -/
def tableByte (nbits w k : Nat) : Byte :=
  if 8 * (k + 1) ≤ nbits then BitVec.ofNat 8 (w >>> (nbits - 8 * (k + 1))) else 0

/-- The six bytes, in the order of transmission, of a table word padded with zero bytes to the longest item. -/
def tableBytes (nbits w : Nat) : List Byte :=
  [tableByte nbits w 0, tableByte nbits w 1, tableByte nbits w 2, tableByte nbits w 3, tableByte nbits w 4,
    tableByte nbits w 5]

/-- The instruction the decoder reads from a word of spec/opcode_table.json. -/
def decodeTableWord (nbits w : Nat) : Option Instr :=
  match decode (tableBytes nbits w) with
  | .ok (i, _) => some i
  | .error _ => none

end Sys2Proof
end

