-- ==== Sys2Proof/Machine/Operands.lean ====
section
/-! DEFINITION. The operands of a frame as the block takes them from `command_buffer` (30_encoding.md R64, R65;
42_block_read.md R141), and `Recv(op)` (30_encoding.md R62). -/

namespace Sys2Proof.Machine

/-- `command_buffer[0]`. -/
def State.storedOpcode (s : State) : Byte := s.commandBuffer[0]

/-- `command_buffer[1] ++ command_buffer[2] ++ command_buffer[3] ++ command_buffer[4]` (R64). -/
def State.storedArgument (s : State) : Argument :=
  frameArgument s.commandBuffer[1] s.commandBuffer[2] s.commandBuffer[3] s.commandBuffer[4]

/-- `command_buffer[5]`, which no rule examines (R65). -/
def State.storedTrailer (s : State) : Byte := s.commandBuffer[5]

/-- The six bytes of the frame in `command_buffer`, byte 0 first (R60). -/
def State.storedFrame (s : State) : List Byte :=
  [s.commandBuffer[0], s.commandBuffer[1], s.commandBuffer[2], s.commandBuffer[3], s.commandBuffer[4],
    s.commandBuffer[5]]

/-- The block number of a CMD17: its argument as an unsigned integer in 0..4294967295 (R141). -/
def blockNumber (arg : Argument) : Nat := arg.toNat

/-- A block lies in the store: `n*512 + 512 <= STORE_BYTES` on unbounded integers (42_block_read.md R142, R150). -/
def blockInStore (n : Nat) : Bool := decide (n * Literals.blockBytes + Literals.blockBytes ≤ Literals.storeBytes)

/-- `Recv(op)`: the `Receiving*` state that an opcode enters, none for the other bytes (30_encoding.md R62). -/
def recvState (op : Byte) : Option CardState :=
  if op = Literals.opCmd0 then some .receivingCmd0
  else if op = Literals.opCmd8 then some .receivingCmd8
  else if op = Literals.opCmd16 then some .receivingCmd16
  else if op = Literals.opCmd17 then some .receivingCmd17
  else if op = Literals.opAcmd41 then some .receivingAcmd41
  else if op = Literals.opCmd55 then some .receivingCmd55
  else if op = Literals.opCmd58 then some .receivingCmd58
  else none

end Sys2Proof.Machine
end

