-- ==== Sys2Proof/Machine/Ops.lean ====
section
/-! DEFINITION. The operations that instructions and framing share: delivering a result, taking a fatal, `ResetToIdle`,
starting and growing a frame, staging a block, calling the latency hook. -/

namespace Sys2Proof.Machine

/-- The outcome of a step of this machine. -/
abbrev Outcome := Host.Outcome State Fault Refusal

/-- The numbers in column `code` of 60_exceptions.md R160. -/
def FatalCause.code : FatalCause → Nat
  | .configError => 1
  | .unknownCommand => 2
  | .bufferOverflow => 3
  | .unknownDispatch => 4
  | .addressRange => 5
  | .frameOverrun => 6
  | .replyOverlap => 7

/-- The class of a cause (60_exceptions.md R161). -/
def FatalCause.fatalClass : FatalCause → FatalClass
  | .configError => .configurationError
  | .unknownCommand => .protocolViolation
  | .bufferOverflow => .protocolViolation
  | .unknownDispatch => .protocolViolation
  | .addressRange => .addressingError
  | .frameOverrun => .protocolViolation
  | .replyOverlap => .protocolViolation

/-- An operation hands its result to whoever invoked it (00_scope.md R10; log 2). -/
def State.deliver (s : State) (r : HostResult) : State := { s with delivered := r :: s.delivered }

/-- The queue after an operation has been taken from it (log 1). -/
def State.withPending (s : State) (rest : List HostOp) : State := { s with pending := rest }

/-- An operation ends `Ok` with no byte. -/
def complete (s : State) : Outcome := .next (s.deliver .done)

/-- `return b` (00_scope.md R9). -/
def returnByte (b : Byte) (s : State) : Outcome := .next (s.deliver (.byte b))

/-- The fault latch is set (10_state.md R29). -/
def State.latch (s : State) (f : Fatal) : State := { s with fault := some f }

/-- `raise Fatal(cause, info)` (60_exceptions.md R164): `fault` is latched, every other field of the block keeps its
value, and the operation delivers the fatal instead of its result. There is no return from it (R165); `step` stops
from the next state on (log 4). -/
def raiseFatal (cause : FatalCause) (info : FatalInfo) (s : State) : Outcome :=
  .next ((s.latch ⟨cause, info⟩).deliver (.fatal ⟨cause, info⟩))

/-- `ResetToIdle()` (41_reply_dispatch.md R113). The cursors are not touched. -/
def State.resetToIdle (s : State) : State := { s with state := .idle, commandLength := 0 }

/-- The frame is complete, ready to answer (41_reply_dispatch.md R111). -/
def State.enterReady (s : State) : State := { s with state := .ready }

/-- `cmd8_reply_index <- c`. -/
def State.setCmd8Index (s : State) (c : Fin 6) : State := { s with cmd8ReplyIndex := c }

/-- `cmd58_reply_index <- c`. -/
def State.setCmd58Index (s : State) (c : Fin 6) : State := { s with cmd58ReplyIndex := c }

/-- `block_read_index <- k`, `none` for -1. -/
def State.setBlockIndex (s : State) (k : Option (Fin 513)) : State := { s with blockReadIndex := k }

/-- The buffer restarts with an opcode (40_command_framing.md R80, R82 to R88, R90). -/
def State.beginFrame (s : State) (v : Byte) (recv : CardState) : State :=
  { s with commandBuffer := s.commandBuffer.set 0 v, commandLength := 1, state := recv }

/-- A byte is appended to the frame (40_command_framing.md R92). -/
def State.appendByte (s : State) (v : Byte) (room : s.commandLength.val + 1 < 32) : State :=
  { s with
    commandBuffer := s.commandBuffer.set s.commandLength.val v s.commandLength.isLt
    commandLength := ⟨s.commandLength.val + 1, room⟩ }

/-- The staging buffer of block `n` (42_block_read.md R143): the start token, then the bytes of the block from the
lowest address up. Irreducible, so that no unification unrolls its 513 bytes. -/
@[irreducible] def stagedBlock (m : Memory) (n : Nat) : Vector Byte Config.stagingBytes :=
  Vector.ofFn fun k =>
    if k.val = 0 then Literals.startToken else m.byteAt (n * Literals.blockBytes + (k.val - 1))

/-- The block is copied into `staging` at once (42_block_read.md R143). -/
def State.stageBlock (s : State) (n : Nat) : State := { s with staging := stagedBlock s.backingStore n }

/-- `Latency(ms)`: the hook is called once; it returns no value and changes no state of the block (42_block_read.md
R144). The model has no time and records the call (log 3). -/
def State.latency (s : State) (ms : Nat) : State := { s with latencyCalls := ms :: s.latencyCalls }

/-- One read of a five-byte reply (41_reply_dispatch.md R118, R119): the byte under the cursor, the cursor
incremented, and after the fifth byte the cursor back to 0 and `ResetToIdle()`. -/
def fiveByteRead (table : Vector Byte 5) (cursor : Fin 6) (setCursor : State → Fin 6 → State)
    (s : State) : Outcome :=
  if h : cursor.val < 5 then
    if cursor.val + 1 = Literals.shortReplyBytes then returnByte table[cursor.val] (setCursor s 0).resetToIdle
    else returnByte table[cursor.val] (setCursor s ⟨cursor.val + 1, by omega⟩)
  else .fault .cursorPastReply

end Sys2Proof.Machine
end

