-- ==== Sys2Proof/Machine/BlockRead.lean ====
section
/-! DEFINITION. The block-read engine, CMD17 (42_block_read.md R140 to R150). -/

namespace Sys2Proof.Machine

/-- The first dispatch of a CMD17 (R141 to R145): the range check, then the copy, the latency, the cursor at 0, and
the start token. -/
def blockReadFirst (n : Nat) (s : State) : Outcome :=
  if blockInStore n then
    returnByte (stagedBlock s.backingStore n)[0]
      (((s.stageBlock n).latency Literals.latencyMs).setBlockIndex (some 0))
  else raiseFatal .addressRange (.blockNumber n) s

/-- A later read (R146, R147): the cursor advances and the byte under it is returned; after the last one the cursor
is put to rest and `ResetToIdle()` is called. -/
def blockReadNext (i : Fin 513) (s : State) : Outcome :=
  if h : i.val + 1 < 513 then
    if i.val + 1 = Literals.blockBytes then
      returnByte s.staging[i.val + 1] (s.setBlockIndex none).resetToIdle
    else returnByte s.staging[i.val + 1] (s.setBlockIndex (some ⟨i.val + 1, h⟩))
  else .fault .cursorPastReply

/-- CMD17, reply: `BlockReadStep()` (R140). -/
def execCmd17 (arg : Argument) (_trailer : Byte) (s : State) : Outcome :=
  match s.blockReadIndex with
  | none => blockReadFirst (blockNumber arg) s
  | some i => blockReadNext i s

end Sys2Proof.Machine
end

