-- ==== Sys2Proof/Machine/Filler.lean ====
section
/-! DEFINITION. The filler (40_command_framing.md R81). -/

namespace Sys2Proof.Machine

/-- IDLE: "a no-op: ignored, no state change" (R81; 30_encoding.md R66). -/
def execIdle (s : State) : Outcome := complete s

end Sys2Proof.Machine
end

