-- ==== Sys2Proof/Machine/FiveByte.lean ====
section
/-! DEFINITION. The commands with a five-byte reply (41_reply_dispatch.md R118, R119): one byte of a fixed table per
read, the cursor of each command its own. -/

namespace Sys2Proof.Machine

/-- CMD8, reply (R118). The argument is not echoed. -/
def execCmd8 (_arg : Argument) (_trailer : Byte) (s : State) : Outcome :=
  fiveByteRead Literals.cmd8Reply s.cmd8ReplyIndex State.setCmd8Index s

/-- CMD58, reply (R119). -/
def execCmd58 (_arg : Argument) (_trailer : Byte) (s : State) : Outcome :=
  fiveByteRead Literals.cmd58Reply s.cmd58ReplyIndex State.setCmd58Index s

end Sys2Proof.Machine
end

