-- ==== Sys2Proof/Machine/OneByte.lean ====
section
/-! DEFINITION. The commands with a one-byte reply (41_reply_dispatch.md R114 to R117): the byte is returned and the
block resets to Idle in the same read. Argument and trailer are not read (30_encoding.md R64, R65). -/

namespace Sys2Proof.Machine

/-- CMD0, reply (R114): "card idle acknowledgment". It resets nothing else (70_reset_and_hazards.md R195). -/
def execCmd0 (_arg : Argument) (_trailer : Byte) (s : State) : Outcome :=
  returnByte Literals.cmd0Reply s.resetToIdle

/-- CMD16, reply (R115). The block length stays 512 (42_block_read.md R148). -/
def execCmd16 (_arg : Argument) (_trailer : Byte) (s : State) : Outcome :=
  returnByte Literals.cmd16Reply s.resetToIdle

/-- CMD55, reply (R116). It leaves no mark (10_state.md R37). -/
def execCmd55 (_arg : Argument) (_trailer : Byte) (s : State) : Outcome :=
  returnByte Literals.cmd55Reply s.resetToIdle

/-- ACMD41, reply (R117), with or without a CMD55 before it. -/
def execAcmd41 (_arg : Argument) (_trailer : Byte) (s : State) : Outcome :=
  returnByte Literals.acmd41Reply s.resetToIdle

end Sys2Proof.Machine
end

