-- ==== Sys2Proof/Machine/Dispatch.lean ====
section
/-! DEFINITION. The dispatch on a decoded item (41_reply_dispatch.md R110, R112; 40_command_framing.md R81). -/

namespace Sys2Proof.Machine

-- One read in Ready of the command's reply, or the filler's no-operation.
def exec (i : Instr) (s : State) : Host.Outcome State Fault Refusal :=
  match i with
  | .cmd0 arg trailer => Sys2Proof.Machine.execCmd0 arg trailer s
  | .cmd8 arg trailer => Sys2Proof.Machine.execCmd8 arg trailer s
  | .cmd16 arg trailer => Sys2Proof.Machine.execCmd16 arg trailer s
  | .cmd17 arg trailer => Sys2Proof.Machine.execCmd17 arg trailer s
  | .acmd41 arg trailer => Sys2Proof.Machine.execAcmd41 arg trailer s
  | .cmd55 arg trailer => Sys2Proof.Machine.execCmd55 arg trailer s
  | .cmd58 arg trailer => Sys2Proof.Machine.execCmd58 arg trailer s
  | .idle => Sys2Proof.Machine.execIdle s

end Sys2Proof.Machine
end

