-- ==== Sys2Proof/WellFormed.lean ====
section
/-! DEFINITION. Well-formedness of what the host sends. An `Instr` carries its bounds in its types: every argument
and every trailer is admitted (30_encoding.md R61, R65; 40_command_framing.md R95), so the checks are on byte
sequences and on accesses. -/

namespace Sys2Proof

/-- Every instruction is well formed: its argument is 32 bits and its trailer 8, and no value of either is refused
(40_command_framing.md R95). -/
def Instr.wellFormed : Instr → Bool
  | .cmd0 _ _ => true
  | .cmd8 _ _ => true
  | .cmd16 _ _ => true
  | .cmd17 _ _ => true
  | .acmd41 _ _ => true
  | .cmd55 _ _ => true
  | .cmd58 _ _ => true
  | .idle => true

/-- A byte sequence is exactly one item (30_encoding.md R60): the filler alone, or six bytes of which the first is
an opcode. -/
def completeItem : List Byte → Bool
  | [] => false
  | first :: rest =>
    if first = Machine.Literals.filler then rest.isEmpty
    else decide (first ∈ Machine.Literals.opcodes) && rest.length + 1 == Machine.Literals.frameBytes

/-- An access is at least a byte wide and a store's data fits its width (20_memory.md R42; log 12). An `otherWrite` or
`otherRead` is admitted with every offset (log 24). -/
def Machine.HostOp.wellFormed : Machine.HostOp → Bool
  | .txWrite _ => true
  | .rxRead => true
  | .otherWrite _ _ => true
  | .otherRead _ => true
  | .store _ bytes data => decide (1 ≤ bytes) && decide (data < 256 ^ bytes)
  | .load _ bytes => decide (1 ≤ bytes)
  | .construct => true
  | .deviceReset _ => true

end Sys2Proof
end

