-- ==== Sys2Proof/Machine/Access.lean ====
section
/-! DEFINITION. The operations of 00_scope.md R8: `TxWrite` (40_command_framing.md), `RxRead` (41_reply_dispatch.md),
the reserved offsets and the routing of window accesses (20_memory.md), `Construct` and `DeviceReset`
(70_reset_and_hazards.md). -/

namespace Sys2Proof.Machine

/-- A byte written in `Idle` or `Ready` (R80): filler, unknown byte, overlap, start of a frame, checked in the order
of 60_exceptions.md R163. -/
def txWriteOpcode (v : Byte) (s : State) : Outcome :=
  if v = Literals.filler then exec .idle s
  else
    match recvState v with
    | none => raiseFatal .unknownCommand (.byte v) s
    | some recv => if s.replyActive then raiseFatal .replyOverlap (.byte v) s else complete (s.beginFrame v recv)

/-- A byte written in a `Receiving*` state (R80, R92 to R94). The check at 32 is never met after the one at 6 and is
kept because the spec states it (R94; log 15). -/
def txWriteFrame (v : Byte) (s : State) : Outcome :=
  if Literals.frameBytes ≤ s.commandLength.val then raiseFatal .frameOverrun (.byte v) s
  else if h : s.commandLength.val + 1 = 32 then raiseFatal .bufferOverflow (.byte v) s
  else complete (s.appendByte v (by omega))

/-- `TxWrite(v)` (R80). -/
def txWrite (v : Byte) (s : State) : Outcome :=
  if s.state.isReceiving then txWriteFrame v s else txWriteOpcode v s

/-- A read in `Idle` or a `Receiving*` state (41_reply_dispatch.md R111): the filler, and `Ready` once six bytes are
there. -/
def rxFiller (s : State) : Outcome :=
  returnByte Literals.filler (if Literals.frameBytes ≤ s.commandLength.val then s.enterReady else s)

/-- A read in `Ready` (41_reply_dispatch.md R112): the frame in the buffer is decoded afresh and dispatched; an unknown
stored opcode is fatal (R120). -/
def rxDispatch (s : State) : Outcome :=
  match frameInstr s.storedOpcode s.storedArgument s.storedTrailer with
  | some i => exec i s
  | none => raiseFatal .unknownDispatch (.byte s.storedOpcode) s

/-- `RxRead()` (41_reply_dispatch.md R110). -/
def rxRead (s : State) : Outcome := if s.state = .ready then rxDispatch s else rxFiller s

/-- `OtherWrite(off, v)`: ignored (20_memory.md R45). The offset is not examined: R45 speaks of the reserved offsets in
the window, and that an operation queued with any other offset is ignored too is a DESIGN CHOICE, log 24. -/
def otherWrite (_offset : Nat) (_v : Byte) (s : State) : Outcome := complete s

/-- `OtherRead(off)`: returns 0, no side effect (20_memory.md R45). The offset is not examined: R45 speaks of the
reserved offsets in the window, and that an operation queued with any other offset reads 0 too is a DESIGN CHOICE,
log 24. -/
def otherRead (_offset : Nat) (s : State) : Outcome := returnByte Literals.reservedRead s

/-- The offset in the window of an absolute address, none outside the window (20_memory.md R40, R41). -/
def windowOffset (address : Nat) : Option Nat :=
  if Config.base ≤ address ∧ address < Config.base + Config.windowBytes then some (address - Config.base) else none

/-- The operation that a store at an offset is: `TxWrite` of the low 8 bits at the outgoing-data register, else
ignored (20_memory.md R41, R42, R44). -/
def routeStore (offset data : Nat) : HostOp :=
  if offset = Config.txOffset then .txWrite (BitVec.ofNat 8 data) else .otherWrite offset (BitVec.ofNat 8 data)

/-- The operation that a load at an offset is: `RxRead` at the incoming-data register, else a read of 0 (20_memory.md
R41, R44). -/
def routeLoad (offset : Nat) : HostOp := if offset = Config.rxOffset then .rxRead else .otherRead offset

/-- A byte zero-extended to an access of `w` bits (20_memory.md R42; 41_reply_dispatch.md R121). -/
def HostResult.widen (w : Nat) : HostResult → HostResult
  | .byte b => .word w (b.setWidth w)
  | .done => .done
  | .word w' v => .word w' v
  | .fatal f => .fatal f

/-- The newest result, widened to the width of the host's load. -/
def State.widened (t : State) (w : Nat) : State :=
  { t with
    delivered :=
      match t.delivered with
      | [] => []
      | r :: rs => r.widen w :: rs }

/-- The platform widens the result of the operation it has routed a load to. -/
def widenNewest (w : Nat) : Outcome → Outcome
  | .next t => .next (t.widened w)
  | .fault r => .fault r
  | .refused r => .refused r

/-- One of the four operations on the two registers and the reserved offsets. -/
def registerOp : HostOp → State → Outcome
  | .txWrite v, s => txWrite v s
  | .rxRead, s => rxRead s
  | .otherWrite offset v, s => otherWrite offset v s
  | .otherRead offset, s => otherRead offset s
  | .store _ _ _, _ => .refused .malformedAccess
  | .load _ _, _ => .refused .malformedAccess
  | .construct, _ => .refused .resetOutOfPlace
  | .deviceReset _, _ => .refused .resetOutOfPlace

/-- A store at an absolute address, routed by its first byte's address: where a wide access reaches over another offset
or the end of the window, 20_memory.md R48 leaves it to the platform (DESIGN CHOICE, log 10). -/
def storeAccess (address data : Nat) (s : State) : Outcome :=
  match windowOffset address with
  | none => .refused .outsideWindow
  | some offset => registerOp (routeStore offset data) s

/-- A load of `bytes` bytes at an absolute address, routed by its first byte's address, as a store is (DESIGN CHOICE,
log 10). -/
def loadAccess (address bytes : Nat) (s : State) : Outcome :=
  match windowOffset address with
  | none => .refused .outsideWindow
  | some offset => widenNewest (8 * bytes) (registerOp (routeLoad offset) s)

/-- `Construct()` (70_reset_and_hazards.md R191): the protocol state is set; the buffers keep unspecified contents. -/
def State.construct (s : State) : State :=
  { s with
    state := .idle
    commandLength := 0
    cmd8ReplyIndex := 0
    cmd58ReplyIndex := 0
    blockReadIndex := none
    fault := none
    lifecycle := .constructed }

/-- The image is copied into the store, and the block accepts traffic (70_reset_and_hazards.md R192, R193). -/
def State.accept (s : State) (bytes : List Byte) : State :=
  { s with backingStore := s.backingStore.load 0 bytes, lifecycle := .running }

/-- `DeviceReset(image)` (70_reset_and_hazards.md R192): an image that is missing or not of the store's size is a
`ConfigError`; else it is copied verbatim, and the block accepts traffic. -/
def deviceReset (image : Option (List Byte)) (s : State) : Outcome :=
  match image with
  | none => raiseFatal .configError .imageMissing s
  | some bytes =>
    if bytes.length = Literals.storeBytes then
      complete (s.accept bytes)
    else raiseFatal .configError (.imageSize bytes.length) s

/-- Host traffic is accepted once `DeviceReset` is over (70_reset_and_hazards.md R193). -/
def whenRunning (s : State) (o : Outcome) : Outcome :=
  if s.lifecycle = .running then o else .refused .trafficBeforeReset

/-- One operation, from start to end (00_scope.md R4, R8). Exactly one `Construct` and one `DeviceReset`, in this
order and before all traffic (70_reset_and_hazards.md R190, R194; log 13). -/
def perform (op : HostOp) (s : State) : Outcome :=
  if op.wellFormed = false then .refused .malformedAccess
  else
    match op with
    | .txWrite v => whenRunning s (txWrite v s)
    | .rxRead => whenRunning s (rxRead s)
    | .otherWrite offset v => whenRunning s (otherWrite offset v s)
    | .otherRead offset => whenRunning s (otherRead offset s)
    | .store address _ data => whenRunning s (storeAccess address data s)
    | .load address bytes => whenRunning s (loadAccess address bytes s)
    | .construct => if s.lifecycle = .absent then complete s.construct else .refused .resetOutOfPlace
    | .deviceReset image =>
      if s.lifecycle = .constructed then deviceReset image s else .refused .resetOutOfPlace

/-- The state in which the next step runs an item of the table (log 19). A frame stands in `command_buffer`, `state`
is `Ready`, every cursor is at rest and the next operation is the read that dispatches; any other byte is the next byte
written to the outgoing-data register in `Idle` or `Ready`. -/
def State.placeItem (s : State) (bytes : List Byte) : State :=
  let first := bytes.getD 0 0
  if first ∈ Literals.opcodes then
    { s with
      state := .ready
      commandBuffer := Vector.ofFn fun k =>
        if k.val < Literals.frameBytes then bytes.getD k.val 0 else s.commandBuffer[k]
      commandLength := 6
      cmd8ReplyIndex := 0
      cmd58ReplyIndex := 0
      blockReadIndex := none
      fault := none
      lifecycle := .running
      pending := .rxRead :: s.pending }
  else
    { s with
      state := if s.state.isReceiving then .idle else s.state
      commandLength := if s.state.isReceiving then 0 else s.commandLength
      fault := none
      lifecycle := .running
      pending := .txWrite first :: s.pending }

end Sys2Proof.Machine
end

