-- ==== Sys2Proof/Machine/Step.lean ====
section
/-! DEFINITION. One step of the machine: the oldest operation waiting is performed (00_scope.md R4, R6; log 1), and the
placing of a table word as the next instruction (log 19). -/

namespace Sys2Proof.Machine

/-- One step. Once a fatal is latched no operation has a step (60_exceptions.md R164). With no operation waiting the
block does nothing: it "never acts on its own" (00_scope.md R6). -/
def step (s : State) : Host.Outcome State Fault Refusal :=
  match s.fault with
  | some f => .fault (.halted f)
  | none =>
    match s.pending with
    | [] => .next s
    | op :: rest => perform op (s.withPending rest)

/-- The state whose next step runs the instruction of a word of spec/opcode_table.json (log 18, 19). -/
def State.withFetchWord (s : State) (nbits w : Nat) : State := s.placeItem (tableBytes nbits w)

end Sys2Proof.Machine
end

