-- ==== Sys2Proof/Safety.lean ====
section
/-! DEFINITION. What claims are stated in: the invariants of 10_state.md R35, a host operation that is next, the
documented reply of a command, the conduct a host owes the block (70_reset_and_hazards.md R198 to R203), the end of a
run (R209), and states that differ only in bytes no rule reads. -/

namespace Sys2Proof.Machine

/-- The byte order of a block is ascending (20_memory.md R47): the bytes of block `n` (R46). -/
def Memory.block (m : Memory) (n : Nat) : List Byte := (List.range 512).map fun i => m.byteAt (n * 512 + i)

/-- The documented reply of a command, in the order it is read (30_encoding.md R62, R68). The filler has none. -/
def replyOf (m : Memory) : Instr → List Byte
  | .cmd0 _ _ => [0x01]
  | .cmd8 _ _ => [0x01, 0x00, 0x00, 0x01, 0xAA]
  | .cmd16 _ _ => [0x00]
  | .cmd17 arg _ => 0xFE :: m.block arg.toNat
  | .acmd41 _ _ => [0x00]
  | .cmd55 _ _ => [0x00]
  | .cmd58 _ _ => [0x00, 0xC0, 0xFF, 0x80, 0x00]
  | .idle => []

/-! ## The invariants of 10_state.md R35 -/

/-- (I-a). -/
abbrev State.IdleAtRest (s : State) : Prop :=
  s.state = .idle → s.commandLength = 0 ∧ s.replyActive = false

/-- (I-b). `Recv(op)` is the state of one opcode only, so `command_buffer[0] = op` is said through it. -/
abbrev State.ReceivingFrame (s : State) : Prop :=
  s.state.isReceiving = true →
    1 ≤ s.commandLength.val ∧ s.commandLength.val ≤ 6 ∧ recvState s.storedOpcode = some s.state ∧
      s.replyActive = false

/-- (I-c). -/
abbrev State.ReadyFrame (s : State) : Prop :=
  s.state = .ready → s.commandLength.val = 6 ∧ s.storedOpcode ∈ Literals.opcodes

/-- (I-d). -/
abbrev State.Cmd8Cursor (s : State) : Prop :=
  s.cmd8ReplyIndex.val ≤ 4 ∧ (s.cmd8ReplyIndex ≠ 0 → s.state = .ready ∧ s.storedOpcode = 0x48)

/-- (I-e). -/
abbrev State.Cmd58Cursor (s : State) : Prop :=
  s.cmd58ReplyIndex.val ≤ 4 ∧ (s.cmd58ReplyIndex ≠ 0 → s.state = .ready ∧ s.storedOpcode = 0x7A)

/-- (I-f): the block cursor, and what the staging buffer holds while it is not at rest. -/
abbrev State.BlockCursor (s : State) : Prop :=
  s.blockReadIndex ≠ none →
    s.blockReadCursor ≤ 511 ∧ s.state = .ready ∧ s.storedOpcode = 0x51 ∧ s.storedArgument.toNat ≤ 8191 ∧
      s.staging[0] = 0xFE ∧
      ∀ i : Fin 512, s.staging[1 + i.val]'(Nat.add_comm 1 i.val ▸ Nat.succ_lt_succ i.isLt) =
        s.backingStore.byteAt (s.storedArgument.toNat * 512 + i.val)

/-- (I-g): at most one cursor is not at rest. -/
abbrev State.OneCursor (s : State) : Prop :=
  (s.cmd8ReplyIndex = 0 ∨ s.cmd58ReplyIndex = 0) ∧ (s.cmd8ReplyIndex = 0 ∨ s.blockReadIndex = none) ∧
    (s.cmd58ReplyIndex = 0 ∨ s.blockReadIndex = none)

/-- The invariants of R35 that speak of the protocol state, (I-a) to (I-g). (I-h), `backing_store = IMAGE`, is no part of
it: a queued `DeviceReset` may bring another image (log 8, 13), and what changes the store is said by
`Obligations.OnlyDeviceResetWritesTheStore`. -/
def State.ProtocolInv (s : State) : Prop :=
  s.IdleAtRest ∧ s.ReceivingFrame ∧ s.ReadyFrame ∧ s.Cmd8Cursor ∧ s.Cmd58Cursor ∧ s.BlockCursor ∧ s.OneCursor

/-- The invariant of the machine: from `Construct` on the protocol invariants hold, before `DeviceReset` the block is
in `Idle` (70_reset_and_hazards.md R191, R193), and the backing store keeps its canonical form. -/
def State.Inv (s : State) : Prop :=
  (s.lifecycle ≠ .absent → s.ProtocolInv) ∧ (s.lifecycle = .constructed → s.state = .idle) ∧
    s.backingStore.wf = true

/-! ## Runs -/

/-- `k` steps, stopping at the first fault or refusal. -/
def runFor : Nat → State → Outcome
  | 0, s => .next s
  | k + 1, s =>
    match step s with
    | .next t => runFor k t
    | .fault r => .fault r
    | .refused r => .refused r

/-- The block is in service and `op` is the next operation, `rest` the ones after it. -/
def State.Next (s : State) (op : HostOp) (rest : List HostOp) : Prop :=
  s.fault = none ∧ s.lifecycle = .running ∧ s.pending = op :: rest

/-- `s` after an operation that has delivered `r` and changed no field of 10_state.md R20. -/
def State.after (s : State) (rest : List HostOp) (r : HostResult) : State :=
  { s with pending := rest, delivered := r :: s.delivered }

/-- `s` after an operation that has raised the fatal `f` (60_exceptions.md R164). -/
def State.afterFatal (s : State) (rest : List HostOp) (f : Fatal) : State :=
  { s with pending := rest, fault := some f, delivered := .fatal f :: s.delivered }

/-- The four operations on the registers and the reserved offsets (00_scope.md R8). -/
def HostOp.onRegisters : HostOp → Bool
  | .txWrite _ => true
  | .rxRead => true
  | .otherWrite _ _ => true
  | .otherRead _ => true
  | .store _ _ _ => false
  | .load _ _ => false
  | .construct => false
  | .deviceReset _ => false

/-- The conduct a host owes the block so that no fatal is raised: in `Idle` and `Ready` only a filler or an opcode
(R198), no seventh byte of a frame (R199), no opcode before a multi-byte reply is read to its end (R202), block
numbers 0..8191 (R203). Of the other rules of conduct no breach raises a fatal: an opcode in `Ready` before any reply byte
was read loses a command silently (R201), so it is permitted here. -/
def Permitted (s : State) : HostOp → Bool
  | .txWrite v =>
    if s.state.isReceiving then decide (s.commandLength.val < 6)
    else decide (v = 0xFF) || (decide (v ∈ Literals.opcodes) && !s.replyActive)
  | .rxRead =>
    decide (s.state ≠ .ready) || decide (s.storedOpcode ≠ 0x51) || decide (s.blockReadIndex ≠ none) ||
      decide (s.storedArgument.toNat ≤ 8191)
  | .otherWrite _ _ => true
  | .otherRead _ => true
  | .store _ _ _ => true
  | .load _ _ => true
  | .construct => true
  | .deviceReset _ => true

/-- The end of a run: "A run is complete at `state = Idle` with `fault = None`" (70_reset_and_hazards.md R209;
92_eei_decisions.md D26). -/
def State.Finished (s : State) : Prop := s.lifecycle = .running ∧ s.state = .idle ∧ s.fault = none

/-- Two states that differ at most in bytes no rule reads: `command_buffer` at and above `command_length` (10_state.md
R22), and `staging` while no block is being served (R27). -/
def SameLive (s t : State) : Prop :=
  s.state = t.state ∧ s.commandLength = t.commandLength ∧
    (∀ k : Fin 32, k.val < s.commandLength.val → s.commandBuffer[k] = t.commandBuffer[k]) ∧
    s.cmd8ReplyIndex = t.cmd8ReplyIndex ∧ s.cmd58ReplyIndex = t.cmd58ReplyIndex ∧
    s.blockReadIndex = t.blockReadIndex ∧ (s.blockReadIndex ≠ none → s.staging = t.staging) ∧
    s.backingStore = t.backingStore ∧ s.fault = t.fault ∧ s.lifecycle = t.lifecycle ∧ s.pending = t.pending ∧
    s.delivered = t.delivered ∧ s.latencyCalls = t.latencyCalls

end Sys2Proof.Machine
end

