-- ==== Sys2Proof/Certificates/Slice0/Obligations.lean ====
section
/-! DEFINITION. The statements for the provers. Each docstring names the rule of spec/ that the statement formalises; where
it rests on a decision the spec marks as its own (D<n> of 92_eei_decisions.md), or on a choice of the model (log <n>), it
says so. -/

open Sys2Proof Sys2Proof.Machine

/-! ## Encoding -/

/-- Decoding the bytes of any command with any argument and trailer, or of the filler, gives it back and leaves the
bytes after it (30_encoding.md R60 to R62). -/
def Obligations.DecodeOfEncodeIsTheInstruction : Prop :=
  ∀ (i : Instr) (after : List Byte), decode (encode i ++ after) = .ok (i, after)

/-- Whatever decodes to an instruction is its encoding: no byte of an item is dropped and no two items share their
bytes (30_encoding.md R60, R61). -/
def Obligations.DecodedBytesAreTheEncoding : Prop :=
  ∀ (bytes : List Byte) (i : Instr) (after : List Byte), decode bytes = .ok (i, after) → bytes = encode i ++ after

/-- The first byte alone decides that a sequence is no item: exactly the 248 bytes other than `0xFF` and the seven
opcodes are refused as unknown, whatever follows (30_encoding.md R61, R67; the count is derived there). -/
def Obligations.UnknownFirstBytesAreRefused : Prop :=
  (∀ (v : Byte) (rest : List Byte), decode (v :: rest) = .error (.unknownCommand v) ↔
      v ≠ 0xFF ∧ v ∉ ([0x40, 0x48, 0x50, 0x51, 0x69, 0x77, 0x7A] : List Byte)) ∧
    ((List.range 256).filter fun n => decide (BitVec.ofNat 8 n ≠ (0xFF : Byte)) &&
      decide (BitVec.ofNat 8 n ∉ ([0x40, 0x48, 0x50, 0x51, 0x69, 0x77, 0x7A] : List Byte))).length = 248

/-- The four worked encodings of the source, as bytes and as 48-bit words (30_encoding.md R72). -/
def Obligations.WorkedEncodingsDecode : Prop :=
  (decode [0x40, 0x00, 0x00, 0x00, 0x00, 0x95] = .ok (.cmd0 0 0x95, []) ∧
      decodeTableWord 48 0x400000000095 = some (.cmd0 0 0x95)) ∧
    (decode [0x48, 0x00, 0x00, 0x01, 0xAA, 0x87] = .ok (.cmd8 0x000001AA 0x87, []) ∧
      decodeTableWord 48 0x48000001AA87 = some (.cmd8 0x000001AA 0x87)) ∧
    (decode [0x7A, 0x00, 0x00, 0x00, 0x00, 0xFF] = .ok (.cmd58 0 0xFF, []) ∧
      decodeTableWord 48 0x7A00000000FF = some (.cmd58 0 0xFF)) ∧
    (decode [0x51, 0x00, 0x00, 0x00, 0x00, 0xFF] = .ok (.cmd17 0 0xFF, []) ∧
      decodeTableWord 48 0x5100000000FF = some (.cmd17 0 0xFF))

/-- A 48-bit word whose bits under the mask `0xFF0000000000` are an opcode's match is that command, its argument bits
[39:8] and its trailer bits [7:0]; the 8-bit word `0xFF` is the filler (30_encoding.md R60, R62). -/
def Obligations.TableWordsFollowMaskAndMatch : Prop :=
  (∀ w : Nat,
    (w &&& 0xFF0000000000 = 0x400000000000 →
      decodeTableWord 48 w = some (.cmd0 (BitVec.ofNat 32 (w / 256)) (BitVec.ofNat 8 w))) ∧
    (w &&& 0xFF0000000000 = 0x480000000000 →
      decodeTableWord 48 w = some (.cmd8 (BitVec.ofNat 32 (w / 256)) (BitVec.ofNat 8 w))) ∧
    (w &&& 0xFF0000000000 = 0x500000000000 →
      decodeTableWord 48 w = some (.cmd16 (BitVec.ofNat 32 (w / 256)) (BitVec.ofNat 8 w))) ∧
    (w &&& 0xFF0000000000 = 0x510000000000 →
      decodeTableWord 48 w = some (.cmd17 (BitVec.ofNat 32 (w / 256)) (BitVec.ofNat 8 w))) ∧
    (w &&& 0xFF0000000000 = 0x690000000000 →
      decodeTableWord 48 w = some (.acmd41 (BitVec.ofNat 32 (w / 256)) (BitVec.ofNat 8 w))) ∧
    (w &&& 0xFF0000000000 = 0x770000000000 →
      decodeTableWord 48 w = some (.cmd55 (BitVec.ofNat 32 (w / 256)) (BitVec.ofNat 8 w))) ∧
    (w &&& 0xFF0000000000 = 0x7A0000000000 →
      decodeTableWord 48 w = some (.cmd58 (BitVec.ofNat 32 (w / 256)) (BitVec.ofNat 8 w)))) ∧
    decodeTableWord 8 0xFF = some .idle

/-! ## One step -/

/-- A read in `Ready` runs the instruction that the stored frame decodes to, and a byte written in `Idle` or `Ready`
that is a whole item runs that item; the step adds only that the operation is taken from the queue
(41_reply_dispatch.md R112; 40_command_framing.md R81; the queue is the model's, log 1). -/
def Obligations.StepRunsTheDecodedInstruction : Prop :=
  (∀ (s : State) (rest : List HostOp) (i : Instr), s.Next .rxRead rest → s.state = .ready →
      decode s.storedFrame = .ok (i, []) → step s = exec i (s.withPending rest)) ∧
    (∀ (s : State) (rest : List HostOp) (v : Byte) (i : Instr), s.Next (.txWrite v) rest →
      (s.state = .idle ∨ s.state = .ready) → decode [v] = .ok (i, []) → step s = exec i (s.withPending rest))

/-- After `withFetchWord` with an instruction's word the very next step runs that instruction, and nothing else waits
before what waited already (the model's own, log 18 and 19). -/
def Obligations.FetchWordRunsItsInstruction : Prop :=
  ∀ (s : State) (i : Instr), ∃ u : State,
    step (s.withFetchWord (8 * (encode i).length) (tableWord (encode i))) = exec i u ∧ u.pending = s.pending ∧
      u.backingStore = s.backingStore ∧ u.delivered = s.delivered

/-- With no operation waiting the block does nothing: it "never acts on its own" (00_scope.md R6). That such a step is
a next state and no stop is the model's choice, log 1. -/
def Obligations.BlockNeverActsAlone : Prop :=
  ∀ s : State, s.fault = none → s.pending = [] → step s = .next s

/-- Once a fatal is latched no step is taken again: nothing clears `fault`, nothing resumes, and there is no second
fatal (60_exceptions.md section 4, with the spec's decision D13). For the host's operations the spec says so; that the step
stops too with no operation waiting, and with a platform operation waiting, is the model's reading of "the block is
halted", log 4. -/
def Obligations.FatalHasNoReturn : Prop :=
  ∀ (s : State) (f : Fatal), s.fault = some f → step s = .fault (.halted f)

/-- Fatal entry is precise: a step that latches a fatal changes nothing but `fault`, the queue and the results, and it
delivers that fatal in place of a result. The spec's decision D13 (60_exceptions.md section 4); the entry as a next state
is the model's, log 4. -/
def Obligations.FatalEntryIsPrecise : Prop :=
  ∀ (s t : State) (op : HostOp) (rest : List HostOp) (f : Fatal), s.fault = none → s.pending = op :: rest →
    step s = .next t → t.fault = some f → t = s.afterFatal rest f

/-- Every operation on the registers and the reserved offsets answers, in every state that meets the invariant, and
delivers exactly one result: its completion for a write, a byte for a read, or a fatal that is then latched
(00_scope.md R10). -/
def Obligations.EveryRegisterOperationAnswers : Prop :=
  ∀ (s : State) (op : HostOp) (rest : List HostOp), s.Inv → s.Next op rest → op.onRegisters = true →
    ∃ (t : State) (r : HostResult), step s = .next t ∧ t.pending = rest ∧ t.delivered = r :: s.delivered ∧
      ((t.fault = none ∧ (r = .done ∨ ∃ b, r = .byte b) ∧ ((∃ b, r = .byte b) ↔ op = .rxRead ∨ ∃ o, op = .otherRead o)) ∨
        ∃ f, t.fault = some f ∧ r = .fatal f)

/-! ## Framing -/

/-- The filler: as an instruction it completes and changes no field of the block; any number of fillers in a row in
`Idle` or `Ready`, a reply pending or partly served or not, changes nothing; inside a frame `0xFF` is data
(40_command_framing.md R81). -/
def Obligations.FillerChangesNothing : Prop :=
  (∀ s : State, exec .idle s = .next (s.after s.pending .done)) ∧
    (∀ (k : Nat) (s : State) (rest : List HostOp), s.fault = none → s.lifecycle = .running →
      (s.state = .idle ∨ s.state = .ready) → s.pending = List.replicate k (.txWrite 0xFF) ++ rest →
      runFor k s = .next { s with pending := rest, delivered := List.replicate k .done ++ s.delivered }) ∧
    (∀ (s : State) (rest : List HostOp), s.Next (.txWrite 0xFF) rest → s.state.isReceiving = true →
      s.commandLength.val ≤ 5 → ∃ t, step s = .next t ∧ t.state = s.state ∧
        t.commandLength.val = s.commandLength.val + 1 ∧ t.commandBuffer[s.commandLength] = 0xFF)

/-- Each of the seven opcodes written in `Idle` or `Ready` with no reply partly served restarts the buffer at one byte
and enters its `Receiving*` state, dropping whatever the buffer held, and changes nothing else; with a reply partly
served it is `ReplyOverlap` (40_command_framing.md R82 to R88; the fatal is the spec's decision D9). -/
def Obligations.OpcodeStartsItsFrame : Prop :=
  ∀ (s : State) (rest : List HostOp) (v : Byte) (recv : CardState),
    (v, recv) ∈ ([(0x40, .receivingCmd0), (0x48, .receivingCmd8), (0x50, .receivingCmd16), (0x51, .receivingCmd17),
      (0x69, .receivingAcmd41), (0x77, .receivingCmd55), (0x7A, .receivingCmd58)] : List (Byte × CardState)) →
    s.Next (.txWrite v) rest → (s.state = .idle ∨ s.state = .ready) →
    (s.replyActive = false →
      step s = .next { s.after rest .done with
        state := recv, commandLength := 1, commandBuffer := s.commandBuffer.set 0 v }) ∧
    (s.replyActive = true → step s = .next (s.afterFatal rest ⟨.replyOverlap, .byte v⟩))

/-- A byte that is neither filler nor opcode, written in `Idle` or in `Ready`, a reply partly served or not, is
`UnknownCommand` with that byte (40_command_framing.md R89). -/
def Obligations.UnknownByteIsFatal : Prop :=
  ∀ (s : State) (rest : List HostOp) (v : Byte), s.Next (.txWrite v) rest → (s.state = .idle ∨ s.state = .ready) →
    v ≠ 0xFF → v ∉ ([0x40, 0x48, 0x50, 0x51, 0x69, 0x77, 0x7A] : List Byte) →
    step s = .next (s.afterFatal rest ⟨.unknownCommand, .byte v⟩)

/-- An opcode written while a reply is partly served is `ReplyOverlap`, and the cases are exactly: a CMD8 or CMD58 with 1
to 4 bytes served, a CMD17 with 1 to 512 bytes served. The spec's decision D9 (40_command_framing.md section 2). -/
def Obligations.OverlapCasesAreExactlyThePartlyServedReplies : Prop :=
  ∀ (s : State) (rest : List HostOp) (v : Byte), s.Inv → s.Next (.txWrite v) rest → v ∈ Literals.opcodes →
    (step s = .next (s.afterFatal rest ⟨.replyOverlap, .byte v⟩) ↔
      s.state = .ready ∧
        ((s.storedOpcode = 0x48 ∧ 1 ≤ s.cmd8ReplyIndex.val ∧ s.cmd8ReplyIndex.val ≤ 4) ∨
          (s.storedOpcode = 0x7A ∧ 1 ≤ s.cmd58ReplyIndex.val ∧ s.cmd58ReplyIndex.val ≤ 4) ∨
          (s.storedOpcode = 0x51 ∧ 0 ≤ s.blockReadCursor ∧ s.blockReadCursor ≤ 511)))

/-- In a `Receiving*` state with 1 to 5 bytes stored any byte, `0xFF` and the opcodes included, is stored at index
`command_length`, which grows by one; nothing else changes, `state` least of all (40_command_framing.md R92). -/
def Obligations.FrameByteIsAppended : Prop :=
  ∀ (s : State) (rest : List HostOp) (v : Byte), s.Next (.txWrite v) rest → s.state.isReceiving = true →
    1 ≤ s.commandLength.val → s.commandLength.val ≤ 5 →
    ∃ t, step s = .next t ∧ t.commandLength.val = s.commandLength.val + 1 ∧
      (∀ k : Fin 32, t.commandBuffer[k] = if k = s.commandLength then v else s.commandBuffer[k]) ∧
      t = { s.after rest .done with commandBuffer := t.commandBuffer, commandLength := t.commandLength }

/-- The seventh byte of a frame, whatever it is, is `FrameOverrun`. The spec's decision D7 (40_command_framing.md
section 3; 90_conflicts.md C1). -/
def Obligations.SeventhFrameByteIsFatal : Prop :=
  ∀ (s : State) (rest : List HostOp) (v : Byte), s.Next (.txWrite v) rest → s.state.isReceiving = true →
    s.commandLength.val = 6 → step s = .next (s.afterFatal rest ⟨.frameOverrun, .byte v⟩)

/-- The two causes that other checks shadow never occur: no step from a state that meets the invariant latches
`BufferOverflow` or `UnknownDispatch` (60_exceptions.md section 1, an inference of the spec; 40_command_framing.md
section 3). -/
def Obligations.ShadowedCausesNeverOccur : Prop :=
  ∀ (s t : State) (f : Fatal), s.Inv → step s = .next t → t.fault = some f →
    f.cause ≠ .bufferOverflow ∧ f.cause ≠ .unknownDispatch

/-- What the write path never does: it returns no byte, enters neither `Ready` nor `Idle`, moves no cursor and touches
neither the staging buffer nor the backing store (40_command_framing.md section 4, an inference of the spec). -/
def Obligations.WritePathProducesNoReply : Prop :=
  ∀ (s t : State) (rest : List HostOp) (v : Byte), s.Next (.txWrite v) rest → step s = .next t →
    (t.state = s.state ∨ t.state.isReceiving = true) ∧ (∀ b, t.delivered ≠ .byte b :: s.delivered) ∧
      t.cmd8ReplyIndex = s.cmd8ReplyIndex ∧ t.cmd58ReplyIndex = s.cmd58ReplyIndex ∧
      t.blockReadIndex = s.blockReadIndex ∧ t.staging = s.staging ∧ t.backingStore = s.backingStore ∧
      t.latencyCalls = s.latencyCalls

/-! ## Replies -/

/-- A read while the block is not `Ready` returns `0xFF`; it enters `Ready` if six bytes are there, and changes nothing
else. The comparison is the spec's decision D8 (41_reply_dispatch.md section 2). -/
def Obligations.ReadOutsideReadyReturnsTheFiller : Prop :=
  ∀ (s : State) (rest : List HostOp), s.Next .rxRead rest → s.state ≠ .ready →
    step s = .next { s.after rest (.byte 0xFF) with state := if 6 ≤ s.commandLength.val then .ready else s.state }

/-- The one-byte replies: in `Ready`, CMD0 returns `0x01` and CMD16, CMD55 and ACMD41 return `0x00`, for every argument
and trailer; the same read resets to `Idle` with an empty buffer and changes nothing else, and a read after it
returns `0xFF` and changes nothing (41_reply_dispatch.md R115, R116, R117, and the effect of R114). -/
def Obligations.OneByteRepliesAreServedInOneRead : Prop :=
  ∀ (s : State) (arg : Argument) (trailer : Byte), s.state = .ready →
    (exec (.cmd0 arg trailer) s = .next { s.after s.pending (.byte 0x01) with state := .idle, commandLength := 0 }) ∧
    (exec (.cmd16 arg trailer) s = .next { s.after s.pending (.byte 0x00) with state := .idle, commandLength := 0 }) ∧
    (exec (.cmd55 arg trailer) s = .next { s.after s.pending (.byte 0x00) with state := .idle, commandLength := 0 }) ∧
    (exec (.acmd41 arg trailer) s = .next { s.after s.pending (.byte 0x00) with state := .idle, commandLength := 0 }) ∧
    (∀ (b : Byte) (t : State) (rest : List HostOp),
      t = { s.after s.pending (.byte b) with state := .idle, commandLength := 0 } → t.Next .rxRead rest →
      step t = .next (t.after rest (.byte 0xFF)))

/-- The five-byte replies: with its cursor at `k`, 0..4, each of CMD8 and CMD58 returns byte `k` of its own table for
every argument and trailer; before the last byte the cursor advances and nothing else changes, with the last it returns
to 0 and the block resets to `Idle`. The cursor's return is the spec's decision D11 (41_reply_dispatch.md section 5). -/
def Obligations.FiveByteRepliesFollowTheirCursor : Prop :=
  ∀ (s : State) (arg : Argument) (trailer : Byte), s.state = .ready →
    (∀ k : Fin 5, s.cmd8ReplyIndex.val = k.val → ∃ t, exec (.cmd8 arg trailer) s = .next t ∧
      t.delivered = .byte (([0x01, 0x00, 0x00, 0x01, 0xAA] : List Byte)[k]) :: s.delivered ∧
      t.cmd8ReplyIndex.val = (k.val + 1) % 5 ∧
      t = { s with
        delivered := t.delivered, cmd8ReplyIndex := t.cmd8ReplyIndex
        state := if k.val = 4 then .idle else .ready
        commandLength := if k.val = 4 then 0 else s.commandLength }) ∧
    (∀ k : Fin 5, s.cmd58ReplyIndex.val = k.val → ∃ t, exec (.cmd58 arg trailer) s = .next t ∧
      t.delivered = .byte (([0x00, 0xC0, 0xFF, 0x80, 0x00] : List Byte)[k]) :: s.delivered ∧
      t.cmd58ReplyIndex.val = (k.val + 1) % 5 ∧
      t = { s with
        delivered := t.delivered, cmd58ReplyIndex := t.cmd58ReplyIndex
        state := if k.val = 4 then .idle else .ready
        commandLength := if k.val = 4 then 0 else s.commandLength })

/-- No reply is ever read past its end: from a state that meets the invariant no step, a load included, stops with
`cursorPastReply` (10_state.md section 2, which lets a cursor be past its last byte only inside an operation, and
section 4; the fault itself is the model's, log 14). -/
def Obligations.NoReplyIsReadPastItsEnd : Prop :=
  ∀ s : State, s.Inv → step s ≠ .fault .cursorPastReply

/-! ## The block-read engine -/

/-- CMD17 completes: in `Ready` with the cursor at rest and a block number 0..8191 its first read fills the staging
buffer with the start token and the block, calls the latency once, sets the cursor to 0 and returns `0xFE`; with the
cursor at 0..510 it advances and returns the next staged byte; at 511 it returns the last one, puts the cursor to rest and
resets to `Idle`. Nothing else changes (42_block_read.md sections 1 to 3; the cursor's representation is the spec's
decision D12, the unsigned block number its D14, the recorded latency call the model's, log 3). -/
def Obligations.BlockReadCompletes : Prop :=
  ∀ (s : State) (arg : Argument) (trailer : Byte), s.state = .ready →
    (s.blockReadIndex = none → arg.toNat ≤ 8191 → ∃ t, exec (.cmd17 arg trailer) s = .next t ∧
      t.staging[0] = 0xFE ∧
      (∀ i : Fin 512, t.staging[1 + i.val]'(Nat.add_comm 1 i.val ▸ Nat.succ_lt_succ i.isLt) =
        s.backingStore.byteAt (arg.toNat * 512 + i.val)) ∧
      t = { s.after s.pending (.byte 0xFE) with
        staging := t.staging, blockReadIndex := some 0, latencyCalls := 30 :: s.latencyCalls }) ∧
    (∀ (k : Fin 512), s.blockReadIndex = some k.castSucc → ∃ t, exec (.cmd17 arg trailer) s = .next t ∧
      t.delivered = .byte (s.staging[1 + k.val]'(Nat.add_comm 1 k.val ▸ Nat.succ_lt_succ k.isLt)) :: s.delivered ∧
      t = { s with
        delivered := t.delivered
        blockReadIndex := if k.val = 511 then none else some k.succ
        state := if k.val = 511 then .idle else .ready
        commandLength := if k.val = 511 then 0 else s.commandLength })

/-- `BlockReadStep()` as the whole operation on the machine: the read in `Ready` with `0x51` stored takes the block number
from `command_buffer[1..4]`, big-endian and on unbounded integers; out of range it is `AddressRange` with that number,
before any copy, latency or byte; in range it stages and returns the start token; later reads serve the staging buffer,
and the 513th resets to `Idle` (42_block_read.md R140, R143). Behind R140 stand the spec's decisions D12 (the cursor's
representation), D14 (the unsigned number) and D15 (one latency call, which the model records, log 3). -/
def Obligations.BlockReadStepOfTheMachine : Prop :=
  ∀ (s : State) (rest : List HostOp) (n : Nat), s.Next .rxRead rest → s.state = .ready → s.storedOpcode = 0x51 →
    n = s.commandBuffer[1].toNat * 16777216 + s.commandBuffer[2].toNat * 65536 + s.commandBuffer[3].toNat * 256 +
      s.commandBuffer[4].toNat →
    (s.blockReadIndex = none → 4194304 < n * 512 + 512 →
      step s = .next (s.afterFatal rest ⟨.addressRange, .blockNumber n⟩)) ∧
    (s.blockReadIndex = none → n * 512 + 512 ≤ 4194304 → ∃ t, step s = .next t ∧
      t.staging[0] = 0xFE ∧
      (∀ i : Fin 512, t.staging[1 + i.val]'(Nat.add_comm 1 i.val ▸ Nat.succ_lt_succ i.isLt) =
        s.backingStore.byteAt (n * 512 + i.val)) ∧
      t = { s.after rest (.byte 0xFE) with
        staging := t.staging, blockReadIndex := some 0, latencyCalls := 30 :: s.latencyCalls }) ∧
    (∀ (k : Fin 512), s.blockReadIndex = some k.castSucc → ∃ t, step s = .next t ∧
      t.delivered = .byte (s.staging[1 + k.val]'(Nat.add_comm 1 k.val ▸ Nat.succ_lt_succ k.isLt)) :: s.delivered ∧
      t = { s with
        pending := rest
        delivered := t.delivered
        blockReadIndex := if k.val = 511 then none else some k.succ
        state := if k.val = 511 then .idle else .ready
        commandLength := if k.val = 511 then 0 else s.commandLength })

/-- The bytes served are the block's: in a state that meets the invariant, with the cursor at `k`, 0..511, the next read
returns byte `k` of the addressed block, and the cursor then stands at `k + 1`, or at rest in `Idle` after the last;
between the reads fillers and accesses to reserved offsets change neither cursor nor staging buffer (42_block_read.md
section 3; for an access queued with an offset that is not reserved this is the model's choice, log 24). -/
def Obligations.ServedBytesAreTheBlock : Prop :=
  ∀ (s : State) (op : HostOp) (rest : List HostOp) (k : Fin 512), s.Inv → s.Next op rest → s.state = .ready →
    s.storedOpcode = 0x51 → s.blockReadIndex = some k.castSucc →
    ((op = .txWrite 0xFF ∨ (∃ o v, op = .otherWrite o v) ∨ ∃ o, op = .otherRead o) →
      ∃ r, step s = .next (s.after rest r)) ∧
    (op = .rxRead → ∃ t, step s = .next t ∧
      t.delivered = .byte (s.backingStore.byteAt (s.storedArgument.toNat * 512 + k.val)) :: s.delivered ∧
      t.backingStore = s.backingStore ∧ t.staging = s.staging ∧
      (k.val < 511 → t.blockReadCursor = k.val + 1 ∧ t.state = .ready) ∧
      (k.val = 511 → t.blockReadCursor = -1 ∧ t.state = .idle ∧ t.commandLength = 0 ∧
        ∀ more, rest = .rxRead :: more → step t = .next (t.after more (.byte 0xFF))))

/-- The latency is called with 30 exactly once per block read, by the read that returns the start token and by nothing
else: a step that calls it performs `RxRead`, or a load at the incoming-data register, delivers `0xFE` and starts the
transfer, and a step that starts a transfer calls it (42_block_read.md section 2, the spec's decision D15; that the call
is recorded is the model's choice, log 3; the load is zero-extended by the spec's decision D3, log 10). -/
def Obligations.LatencyIsCalledOncePerBlockRead : Prop :=
  ∀ (s t : State), step s = .next t →
    (t.latencyCalls = s.latencyCalls ∧ ¬ (s.blockReadIndex = none ∧ t.blockReadIndex ≠ none)) ∨
      (t.latencyCalls = 30 :: s.latencyCalls ∧ s.state = .ready ∧ s.storedOpcode = 0x51 ∧ s.blockReadIndex = none ∧
        s.storedArgument.toNat ≤ 8191 ∧ t.blockReadIndex = some 0 ∧ t.staging[0] = 0xFE ∧
        ((s.pending = .rxRead :: t.pending ∧ t.delivered = .byte 0xFE :: s.delivered) ∨
          ∃ bytes, 1 ≤ bytes ∧ s.pending = .load (Config.base + Config.rxOffset) bytes :: t.pending ∧
            t.delivered = .word (8 * bytes) (BitVec.ofNat (8 * bytes) 0xFE) :: s.delivered))

/-! ## The register window -/

/-- A read of a reserved offset returns 0 and a write to one is ignored, whatever the state: no field of the block
changes and no fatal is raised (20_memory.md section 2). The spec says it of the reserved offsets in the window; that an
operation queued with any other offset is answered the same is the model's choice, log 24. -/
def Obligations.ReservedOffsetsAreInert : Prop :=
  ∀ (s : State) (rest : List HostOp) (offset : Nat) (v : Byte),
    (s.Next (.otherRead offset) rest → step s = .next (s.after rest (.byte 0x00))) ∧
      (s.Next (.otherWrite offset v) rest → step s = .next (s.after rest .done))

/-- A store of any width is routed by the address of its first byte: at the outgoing-data register it is `TxWrite` of its
low 8 bits, anywhere else in the window it is ignored, the incoming-data register included, and below or above the window
it is refused (20_memory.md section 2; the registers' places, the widths and the wrong direction are the spec's decisions
D2, D3, D4, log 9, 10, 11; that the first byte decides for a store that straddles offsets, and the refusal, are the
model's choices, log 10 and 12). -/
def Obligations.StoresAreRoutedByOffset : Prop :=
  Config.txOffset < Config.windowBytes ∧ Config.rxOffset < Config.windowBytes ∧ Config.txOffset ≠ Config.rxOffset ∧
    ∀ (s : State) (rest : List HostOp) (address bytes data : Nat), 1 ≤ bytes → data < 256 ^ bytes →
      s.Next (.store address bytes data) rest →
      (address = Config.base + Config.txOffset →
        step s = step (s.withPending (.txWrite (BitVec.ofNat 8 data) :: rest))) ∧
      (Config.base ≤ address → address < Config.base + Config.windowBytes → address ≠ Config.base + Config.txOffset →
        step s = .next (s.after rest .done)) ∧
      (address < Config.base ∨ Config.base + Config.windowBytes ≤ address → step s = .refused .outsideWindow)

/-- A load of any width is routed by the address of its first byte: at the incoming-data register it is `RxRead`, its
byte zero-extended to the width of the load, anywhere else in the window it reads 0, the outgoing-data register included,
and below or above the window it is refused (20_memory.md section 2; the registers' places, the widths and the wrong
direction are the spec's decisions D2, D3, D4, log 9, 10, 11; that the first byte decides for a load that straddles
offsets, and the refusal, are the model's choices, log 10 and 12). -/
def Obligations.LoadsAreRoutedByOffset : Prop :=
  ∀ (s : State) (rest : List HostOp) (address bytes : Nat), 1 ≤ bytes → s.Next (.load address bytes) rest →
    (address = Config.base + Config.rxOffset →
      ∀ u : State, step (s.withPending (.rxRead :: rest)) = .next u →
        (∀ b, u.delivered = .byte b :: s.delivered →
          step s = .next { u with delivered := .word (8 * bytes) (b.setWidth (8 * bytes)) :: s.delivered }) ∧
        (∀ f, u.delivered = .fatal f :: s.delivered → step s = .next u)) ∧
    (Config.base ≤ address → address < Config.base + Config.windowBytes → address ≠ Config.base + Config.rxOffset →
      step s = .next (s.after rest (.word (8 * bytes) 0))) ∧
    (address < Config.base ∨ Config.base + Config.windowBytes ≤ address → step s = .refused .outsideWindow)

/-! ## Reset -/

/-- The state after reset (10_state.md section 5, the spec's decision D5): `Idle`, empty buffer, every cursor at rest, the
backing store equal to `IMAGE` and in canonical form, no fault. -/
def Obligations.ResetState : Prop :=
  State.reset.state = .idle ∧ State.reset.commandLength = 0 ∧ State.reset.cmd8ReplyIndex = 0 ∧
    State.reset.cmd58ReplyIndex = 0 ∧ State.reset.blockReadCursor = -1 ∧ State.reset.fault = none ∧
    State.reset.backingStore.wf = true ∧ ∀ a, a < 4194304 → State.reset.backingStore.byteAt a = Config.image a

/-- `DeviceReset` with an image of exactly 4194304 bytes copies it verbatim and changes no other field of the block; with a
missing image or one of any other size it is `ConfigError` with what was found (70_reset_and_hazards.md section 1, the
spec's decision D16; the place of the operation in the queue is the model's, log 13). -/
def Obligations.DeviceResetLoadsTheImage : Prop :=
  ∀ (s : State) (rest : List HostOp), s.fault = none → s.lifecycle = .constructed → s.backingStore.wf = true →
    (∀ image : List Byte, s.pending = .deviceReset (some image) :: rest → image.length = 4194304 → ∃ t,
      step s = .next t ∧ t.backingStore.wf = true ∧
      (∀ (a : Nat) (h : a < image.length), t.backingStore.byteAt a = image[a]) ∧
      t = { s.after rest .done with backingStore := t.backingStore, lifecycle := .running }) ∧
    (∀ image : List Byte, s.pending = .deviceReset (some image) :: rest → image.length ≠ 4194304 →
      step s = .next (s.afterFatal rest ⟨.configError, .imageSize image.length⟩)) ∧
    (s.pending = .deviceReset none :: rest →
      step s = .next (s.afterFatal rest ⟨.configError, .imageMissing⟩))

/-- The reset state is what `Construct` and then `DeviceReset(IMAGE)` make of a device whose buffers hold what the model
lets them hold at reset (70_reset_and_hazards.md section 1; log 6, 7, 8, 13). -/
def Obligations.ResetIsConstructThenDeviceReset : Prop :=
  ∀ (s : State) (image : List Byte), image.length = 4194304 →
    (∀ (a : Nat) (h : a < image.length), image[a] = Config.image a) → s.lifecycle = .absent → s.fault = none →
    s.backingStore = [] → s.delivered = [] → s.latencyCalls = [] → s.commandBuffer = State.reset.commandBuffer →
    s.staging = State.reset.staging → s.pending = [.construct, .deviceReset (some image)] →
    runFor 2 s = .next { State.reset with delivered := [.done, .done] }

/-- One `Construct` and one `DeviceReset`, in this order and before all traffic: `Construct` anywhere but on an absent
device is refused, `DeviceReset` anywhere but on a constructed one is refused, a host operation, a load or a store before
service is refused, and the life of the device moves by nothing but these two, one place at a time
(70_reset_and_hazards.md section 1, the spec's decision D6; log 13). -/
def Obligations.ResetsHappenOnceAndFirst : Prop :=
  ∀ (s : State) (op : HostOp) (rest : List HostOp), s.fault = none → s.pending = op :: rest →
    (s.lifecycle ≠ .absent → op = .construct → step s = .refused .resetOutOfPlace) ∧
    (s.lifecycle ≠ .constructed → (∃ image, op = .deviceReset image) → step s = .refused .resetOutOfPlace) ∧
    (s.lifecycle ≠ .running →
      (op.onRegisters = true ∨ (∃ address bytes data, op = .store address bytes data ∧ 1 ≤ bytes ∧ data < 256 ^ bytes) ∨
        ∃ address bytes, op = .load address bytes ∧ 1 ≤ bytes) →
      step s = .refused .trafficBeforeReset) ∧
    (∀ t, step s = .next t → t.lifecycle ≠ s.lifecycle →
      (op = .construct ∧ s.lifecycle = .absent ∧ t.lifecycle = .constructed) ∨
        ∃ image, op = .deviceReset (some image) ∧ s.lifecycle = .constructed ∧ t.lifecycle = .running)

/-- The backing store has no write path: a step that changes any byte of it is a `DeviceReset`, and that comes before the
block accepts traffic (20_memory.md R50). -/
def Obligations.OnlyDeviceResetWritesTheStore : Prop :=
  ∀ (s t : State) (a : Nat), step s = .next t → t.backingStore.byteAt a ≠ s.backingStore.byteAt a →
    s.lifecycle = .constructed ∧ ∃ image rest, s.pending = .deviceReset image :: rest

/-! ## Frames and whole-machine rules -/

/-- What every instruction leaves unchanged when it answers a next state: the command buffer, every byte of the backing
store, the queue and the life of the device; each cursor but that of its own command; `state` and `command_length` unless
the reply is over; the staging buffer and the latency calls but for CMD17's first read; and `fault` but for CMD17's
range check (41_reply_dispatch.md sections 4 and 5; 42_block_read.md sections 1 to 3). -/
def Obligations.InstructionFrame : Prop :=
  ∀ (i : Instr) (s t : State), exec i s = .next t →
    t.commandBuffer = s.commandBuffer ∧ t.backingStore = s.backingStore ∧
      (∀ a, t.backingStore.byteAt a = s.backingStore.byteAt a) ∧ t.pending = s.pending ∧ t.lifecycle = s.lifecycle ∧
      (∃ r, t.delivered = r :: s.delivered) ∧
      (t.cmd8ReplyIndex = s.cmd8ReplyIndex ∨ ∃ a r, i = .cmd8 a r) ∧
      (t.cmd58ReplyIndex = s.cmd58ReplyIndex ∨ ∃ a r, i = .cmd58 a r) ∧
      (t.blockReadIndex = s.blockReadIndex ∨ ∃ a r, i = .cmd17 a r) ∧
      ((t.staging = s.staging ∧ t.latencyCalls = s.latencyCalls) ∨
        ∃ a r, i = .cmd17 a r ∧ s.blockReadIndex = none) ∧
      (t.fault = s.fault ∨ ∃ a r, i = .cmd17 a r ∧ s.blockReadIndex = none ∧ 8191 < a.toNat) ∧
      ((t.state = s.state ∧ t.commandLength = s.commandLength) ∨
        (t.state = .idle ∧ t.commandLength = 0 ∧ i ≠ .idle))

/-- The only way into `Ready` is the turnaround read of a complete frame, the only way into `Idle` is the read that serves
the last byte of a reply, and the only way out of a `Receiving*` state is the turnaround read or a fatal
(41_reply_dispatch.md section 7, an inference of the spec). -/
def Obligations.WaysBetweenTheStates : Prop :=
  ∀ (s t : State) (op : HostOp) (rest : List HostOp), s.Inv → s.Next op rest → op.onRegisters = true →
    step s = .next t →
    (t.state = .ready → s.state ≠ .ready → op = .rxRead ∧ s.state.isReceiving = true ∧ s.commandLength.val = 6) ∧
    (t.state = .idle → s.state ≠ .idle → op = .rxRead ∧ s.state = .ready ∧ t.commandLength = 0 ∧
      t.replyActive = false ∧ ∃ b, t.delivered = .byte b :: s.delivered) ∧
    (s.state.isReceiving = true → t.state ≠ s.state → op = .rxRead ∧ t.state = .ready) ∧
    (t.fault ≠ none → t.state = s.state)

/-- In `Idle` the block is as after reset: all its state but the staging buffer, the dead bytes of the command buffer and
the backing store equals its reset state (70_reset_and_hazards.md section 4, an inference of the spec). The store, which
CMD17 reads, is left free because the invariant does not hold (I-h) (log 8, 13): what changes it is said by
OnlyDeviceResetWritesTheStore. The queue and the two records are the model's own (log 1, 2, 3). -/
def Obligations.IdleIsAQuiescentPoint : Prop :=
  ∀ s : State, s.Inv → s.Finished →
    s = { State.reset with
      commandBuffer := s.commandBuffer, staging := s.staging, backingStore := s.backingStore, pending := s.pending
      delivered := s.delivered, latencyCalls := s.latencyCalls }

/-- The rules of conduct R198, R199, R202 and R203 are exactly what keeps the block from a fatal: from a state that meets
the invariant, an operation on the registers leaves no fault latched if and only if it keeps them. R201 is not among
them: an opcode in `Ready` before any reply byte breaks it and raises no fatal (70_reset_and_hazards.md section 3 with the
spec's decisions D7 and D9; 60_exceptions.md section 4). -/
def Obligations.ConductDecidesFatals : Prop :=
  ∀ (s : State) (op : HostOp) (rest : List HostOp), s.Inv → s.Next op rest → op.onRegisters = true →
    ∃ t, step s = .next t ∧ (t.fault = none ↔ Permitted s op = true)

/-- The invariants (I-a) to (I-g) of 10_state.md section 4 (an inference of the spec, on its decisions D7 and D9) hold
after every step from a state in which they hold, and with them the canonical form of the store (the model's, log 8) and
that a block not yet in service is in `Idle` (the model's, log 13). (I-h) is not among them: what the spec says of the
store is said by OnlyDeviceResetWritesTheStore and ResetState. -/
def Obligations.StepKeepsTheInvariant : Prop :=
  ∀ s t : State, s.Inv → step s = .next t → t.Inv

/-- The invariants (I-a) to (I-g) hold after reset, with the canonical form of the store (the model's, log 8) and the
clauses on the life of the device (the model's, log 13) (10_state.md sections 4 and 5). (I-h) is said by ResetState. -/
def Obligations.ResetMeetsTheInvariant : Prop := State.reset.Inv

/-- No rule reads the bytes of the command buffer at and above `command_length`, nor the staging buffer while no block is
served: two states that meet the invariant and differ at most there step alike, to next states that again differ at
most there, or to the same stop (10_state.md section 2). -/
def Obligations.DeadBytesAreNeverRead : Prop :=
  ∀ s t : State, s.Inv → t.Inv → SameLive s t →
    (∃ u v, step s = .next u ∧ step t = .next v ∧ SameLive u v) ∨ (∃ r, step s = .fault r ∧ step t = .fault r) ∨
      (∃ r, step s = .refused r ∧ step t = .refused r)

/-- A whole command: from any `Idle` state, for every command with every argument and trailer (a CMD17 with a block
number 0..8191), six writes of its frame, the turnaround read and as many reads as its documented reply is long deliver
`0xFF` and then exactly that reply, end in `Idle` with nothing left over, and call the latency once for a CMD17 and
never else (95_test_vectors.md S4; 41_reply_dispatch.md sections 2 to 5; 42_block_read.md section 1; the spec's
decisions D8, D11, D12 and, for the latency, D15; that its call is recorded is the model's choice, log 3). -/
def Obligations.CommandServesItsDocumentedReply : Prop :=
  ∀ (i : Instr) (s : State) (rest : List HostOp), i ≠ .idle →
    (∀ arg trailer, i = .cmd17 arg trailer → arg.toNat ≤ 8191) → s.Inv → s.Finished →
    s.pending = (encode i).map HostOp.txWrite ++
      List.replicate ((replyOf s.backingStore i).length + 1) HostOp.rxRead ++ rest →
    ∃ t, runFor ((replyOf s.backingStore i).length + 7) s = .next t ∧ t.Finished ∧ t.commandLength = 0 ∧
      t.replyActive = false ∧ t.pending = rest ∧ t.backingStore = s.backingStore ∧
      t.delivered = ((replyOf s.backingStore i).map HostResult.byte).reverse ++
        .byte 0xFF :: (List.replicate 6 HostResult.done ++ s.delivered) ∧
      ((∃ arg trailer, i = .cmd17 arg trailer) → t.latencyCalls = 30 :: s.latencyCalls) ∧
      ((∀ arg trailer, i ≠ .cmd17 arg trailer) → t.latencyCalls = s.latencyCalls)
end

