-- ==== Sys2Proof/Laws/Decode.lean ====
section
/-! SUPPORT. The laws of the encoding tables: opcodes, `Recv(op)`, the command of a frame, and the bytes of an
argument. -/

namespace Sys2Proof

open Machine Machine.Literals

theorem mem_opcodes (v : Byte) :
    v ∈ opcodes ↔ v = 0x40 ∨ v = 0x48 ∨ v = 0x50 ∨ v = 0x51 ∨ v = 0x69 ∨ v = 0x77 ∨ v = 0x7A := by
  simp [opcodes, opCmd0, opCmd8, opCmd16, opCmd17, opAcmd41, opCmd55, opCmd58]

theorem filler_not_mem_opcodes : filler ∉ opcodes := by decide

/-- `Recv(op)` says which opcode it belongs to. -/
theorem recvState_cases {v : Byte} {c : CardState} (h : recvState v = some c) :
    (v = 0x40 ∧ c = .receivingCmd0) ∨ (v = 0x48 ∧ c = .receivingCmd8) ∨ (v = 0x50 ∧ c = .receivingCmd16) ∨
      (v = 0x51 ∧ c = .receivingCmd17) ∨ (v = 0x69 ∧ c = .receivingAcmd41) ∨ (v = 0x77 ∧ c = .receivingCmd55) ∨
      (v = 0x7A ∧ c = .receivingCmd58) := by
  unfold recvState at h
  repeat' split at h
  all_goals simp_all [opCmd0, opCmd8, opCmd16, opCmd17, opAcmd41, opCmd55, opCmd58]

theorem recvState_isReceiving {v : Byte} {c : CardState} (h : recvState v = some c) : c.isReceiving = true := by
  rcases recvState_cases h with h | h | h | h | h | h | h <;> rw [h.2] <;> rfl

theorem recvState_injective {v w : Byte} {c : CardState} (hv : recvState v = some c) (hw : recvState w = some c) :
    v = w := by
  rcases recvState_cases hv with h | h | h | h | h | h | h <;>
    rcases recvState_cases hw with h' | h' | h' | h' | h' | h' | h' <;> simp_all

theorem recvState_eq_none_iff (v : Byte) : recvState v = none ↔ v ∉ opcodes := by
  rw [mem_opcodes]
  unfold recvState
  repeat' split
  all_goals simp_all [opCmd0, opCmd8, opCmd16, opCmd17, opAcmd41, opCmd55, opCmd58]

theorem recvState_mem {v : Byte} {c : CardState} (h : recvState v = some c) : v ∈ opcodes := by
  by_contra hv
  rw [(recvState_eq_none_iff v).2 hv] at h
  exact nomatch h

theorem exists_recvState {v : Byte} (h : v ∈ opcodes) : ∃ c, recvState v = some c := by
  cases hr : recvState v with
  | none => exact absurd h ((recvState_eq_none_iff v).1 hr)
  | some c => exact ⟨c, rfl⟩

/-- The command of a frame, opcode by opcode. -/
theorem frameInstr_cases {op : Byte} {arg : Argument} {trailer : Byte} {i : Instr}
    (h : frameInstr op arg trailer = some i) :
    (op = 0x40 ∧ i = .cmd0 arg trailer) ∨ (op = 0x48 ∧ i = .cmd8 arg trailer) ∨
      (op = 0x50 ∧ i = .cmd16 arg trailer) ∨ (op = 0x51 ∧ i = .cmd17 arg trailer) ∨
      (op = 0x69 ∧ i = .acmd41 arg trailer) ∨ (op = 0x77 ∧ i = .cmd55 arg trailer) ∨
      (op = 0x7A ∧ i = .cmd58 arg trailer) := by
  unfold frameInstr at h
  repeat' split at h
  all_goals simp_all [opCmd0, opCmd8, opCmd16, opCmd17, opAcmd41, opCmd55, opCmd58]

theorem frameInstr_eq_none_iff (op : Byte) (arg : Argument) (trailer : Byte) :
    frameInstr op arg trailer = none ↔ op ∉ opcodes := by
  rw [mem_opcodes]
  unfold frameInstr
  repeat' split
  all_goals simp_all [opCmd0, opCmd8, opCmd16, opCmd17, opAcmd41, opCmd55, opCmd58]

theorem exists_frameInstr {op : Byte} (arg : Argument) (trailer : Byte) (h : op ∈ opcodes) :
    ∃ i, frameInstr op arg trailer = some i := by
  cases hi : frameInstr op arg trailer with
  | none => exact absurd h ((frameInstr_eq_none_iff op arg trailer).1 hi)
  | some i => exact ⟨i, rfl⟩

/-- The argument as a number (42_block_read.md R141). -/
theorem frameArgument_toNat (b1 b2 b3 b4 : Byte) :
    (frameArgument b1 b2 b3 b4).toNat = b1.toNat * 16777216 + b2.toNat * 65536 + b3.toNat * 256 + b4.toNat := by
  have h2 := b2.isLt; have h3 := b3.isLt; have h4 := b4.isLt
  simp only [frameArgument, BitVec.toNat_append]
  rw [← Nat.shiftLeft_add_eq_or_of_lt h4, ← Nat.shiftLeft_add_eq_or_of_lt h3, ← Nat.shiftLeft_add_eq_or_of_lt h2]
  simp only [Nat.shiftLeft_eq]
  omega

/-- An argument is its four bytes, most significant first. -/
theorem frameArgument_extract (arg : Argument) :
    frameArgument (arg.extractLsb' 24 8) (arg.extractLsb' 16 8) (arg.extractLsb' 8 8) (arg.extractLsb' 0 8) = arg := by
  apply BitVec.eq_of_toNat_eq
  have h := arg.isLt
  rw [frameArgument_toNat]
  simp only [BitVec.extractLsb'_toNat, Nat.shiftRight_eq_div_pow]
  omega

/-- The four bytes of an argument determine it. -/
theorem frameArgument_injective {b1 b2 b3 b4 c1 c2 c3 c4 : Byte}
    (h : frameArgument b1 b2 b3 b4 = frameArgument c1 c2 c3 c4) : b1 = c1 ∧ b2 = c2 ∧ b3 = c3 ∧ b4 = c4 := by
  have hn := congrArg BitVec.toNat h
  rw [frameArgument_toNat, frameArgument_toNat] at hn
  have h1 := b1.isLt; have h2 := b2.isLt; have h3 := b3.isLt; have h4 := b4.isLt
  have k1 := c1.isLt; have k2 := c2.isLt; have k3 := c3.isLt; have k4 := c4.isLt
  exact ⟨BitVec.eq_of_toNat_eq (by omega), BitVec.eq_of_toNat_eq (by omega), BitVec.eq_of_toNat_eq (by omega),
    BitVec.eq_of_toNat_eq (by omega)⟩

end Sys2Proof
end

