-- ==== Sys2Proof/Laws/State.lean ====
section
/-! SUPPORT. One lemma per field per update of `State`, and one per view that an update leaves alone, so that no later
proof unfolds a record update. -/

namespace Sys2Proof.Machine.State

variable (s : State)

@[simp] theorem deliver_state (r : HostResult) : (s.deliver r).state = s.state := rfl
@[simp] theorem deliver_commandBuffer (r : HostResult) : (s.deliver r).commandBuffer = s.commandBuffer := rfl
@[simp] theorem deliver_commandLength (r : HostResult) : (s.deliver r).commandLength = s.commandLength := rfl
@[simp] theorem deliver_cmd8ReplyIndex (r : HostResult) : (s.deliver r).cmd8ReplyIndex = s.cmd8ReplyIndex := rfl
@[simp] theorem deliver_cmd58ReplyIndex (r : HostResult) : (s.deliver r).cmd58ReplyIndex = s.cmd58ReplyIndex := rfl
@[simp] theorem deliver_blockReadIndex (r : HostResult) : (s.deliver r).blockReadIndex = s.blockReadIndex := rfl
@[simp] theorem deliver_staging (r : HostResult) : (s.deliver r).staging = s.staging := rfl
@[simp] theorem deliver_backingStore (r : HostResult) : (s.deliver r).backingStore = s.backingStore := rfl
@[simp] theorem deliver_fault (r : HostResult) : (s.deliver r).fault = s.fault := rfl
@[simp] theorem deliver_lifecycle (r : HostResult) : (s.deliver r).lifecycle = s.lifecycle := rfl
@[simp] theorem deliver_pending (r : HostResult) : (s.deliver r).pending = s.pending := rfl
@[simp] theorem deliver_delivered (r : HostResult) : (s.deliver r).delivered = r :: s.delivered := rfl
@[simp] theorem deliver_latencyCalls (r : HostResult) : (s.deliver r).latencyCalls = s.latencyCalls := rfl
@[simp] theorem deliver_storedOpcode (r : HostResult) : (s.deliver r).storedOpcode = s.storedOpcode := rfl
@[simp] theorem deliver_storedArgument (r : HostResult) : (s.deliver r).storedArgument = s.storedArgument := rfl
@[simp] theorem deliver_storedTrailer (r : HostResult) : (s.deliver r).storedTrailer = s.storedTrailer := rfl
@[simp] theorem deliver_storedFrame (r : HostResult) : (s.deliver r).storedFrame = s.storedFrame := rfl
@[simp] theorem deliver_replyActive (r : HostResult) : (s.deliver r).replyActive = s.replyActive := rfl
@[simp] theorem deliver_blockReadCursor (r : HostResult) : (s.deliver r).blockReadCursor = s.blockReadCursor := rfl

@[simp] theorem withPending_state (rest : List HostOp) : (s.withPending rest).state = s.state := rfl
@[simp] theorem withPending_commandBuffer (rest : List HostOp) :
    (s.withPending rest).commandBuffer = s.commandBuffer := rfl
@[simp] theorem withPending_commandLength (rest : List HostOp) :
    (s.withPending rest).commandLength = s.commandLength := rfl
@[simp] theorem withPending_cmd8ReplyIndex (rest : List HostOp) :
    (s.withPending rest).cmd8ReplyIndex = s.cmd8ReplyIndex := rfl
@[simp] theorem withPending_cmd58ReplyIndex (rest : List HostOp) :
    (s.withPending rest).cmd58ReplyIndex = s.cmd58ReplyIndex := rfl
@[simp] theorem withPending_blockReadIndex (rest : List HostOp) :
    (s.withPending rest).blockReadIndex = s.blockReadIndex := rfl
@[simp] theorem withPending_staging (rest : List HostOp) : (s.withPending rest).staging = s.staging := rfl
@[simp] theorem withPending_backingStore (rest : List HostOp) :
    (s.withPending rest).backingStore = s.backingStore := rfl
@[simp] theorem withPending_fault (rest : List HostOp) : (s.withPending rest).fault = s.fault := rfl
@[simp] theorem withPending_lifecycle (rest : List HostOp) : (s.withPending rest).lifecycle = s.lifecycle := rfl
@[simp] theorem withPending_pending (rest : List HostOp) : (s.withPending rest).pending = rest := rfl
@[simp] theorem withPending_delivered (rest : List HostOp) : (s.withPending rest).delivered = s.delivered := rfl
@[simp] theorem withPending_latencyCalls (rest : List HostOp) :
    (s.withPending rest).latencyCalls = s.latencyCalls := rfl
@[simp] theorem withPending_storedOpcode (rest : List HostOp) :
    (s.withPending rest).storedOpcode = s.storedOpcode := rfl
@[simp] theorem withPending_storedArgument (rest : List HostOp) :
    (s.withPending rest).storedArgument = s.storedArgument := rfl
@[simp] theorem withPending_storedTrailer (rest : List HostOp) :
    (s.withPending rest).storedTrailer = s.storedTrailer := rfl
@[simp] theorem withPending_storedFrame (rest : List HostOp) : (s.withPending rest).storedFrame = s.storedFrame := rfl
@[simp] theorem withPending_replyActive (rest : List HostOp) : (s.withPending rest).replyActive = s.replyActive := rfl
@[simp] theorem withPending_blockReadCursor (rest : List HostOp) :
    (s.withPending rest).blockReadCursor = s.blockReadCursor := rfl

@[simp] theorem latch_state (f : Fatal) : (s.latch f).state = s.state := rfl
@[simp] theorem latch_commandBuffer (f : Fatal) : (s.latch f).commandBuffer = s.commandBuffer := rfl
@[simp] theorem latch_commandLength (f : Fatal) : (s.latch f).commandLength = s.commandLength := rfl
@[simp] theorem latch_cmd8ReplyIndex (f : Fatal) : (s.latch f).cmd8ReplyIndex = s.cmd8ReplyIndex := rfl
@[simp] theorem latch_cmd58ReplyIndex (f : Fatal) : (s.latch f).cmd58ReplyIndex = s.cmd58ReplyIndex := rfl
@[simp] theorem latch_blockReadIndex (f : Fatal) : (s.latch f).blockReadIndex = s.blockReadIndex := rfl
@[simp] theorem latch_staging (f : Fatal) : (s.latch f).staging = s.staging := rfl
@[simp] theorem latch_backingStore (f : Fatal) : (s.latch f).backingStore = s.backingStore := rfl
@[simp] theorem latch_fault (f : Fatal) : (s.latch f).fault = some f := rfl
@[simp] theorem latch_lifecycle (f : Fatal) : (s.latch f).lifecycle = s.lifecycle := rfl
@[simp] theorem latch_pending (f : Fatal) : (s.latch f).pending = s.pending := rfl
@[simp] theorem latch_delivered (f : Fatal) : (s.latch f).delivered = s.delivered := rfl
@[simp] theorem latch_latencyCalls (f : Fatal) : (s.latch f).latencyCalls = s.latencyCalls := rfl
@[simp] theorem latch_storedOpcode (f : Fatal) : (s.latch f).storedOpcode = s.storedOpcode := rfl
@[simp] theorem latch_storedArgument (f : Fatal) : (s.latch f).storedArgument = s.storedArgument := rfl
@[simp] theorem latch_storedTrailer (f : Fatal) : (s.latch f).storedTrailer = s.storedTrailer := rfl
@[simp] theorem latch_storedFrame (f : Fatal) : (s.latch f).storedFrame = s.storedFrame := rfl
@[simp] theorem latch_replyActive (f : Fatal) : (s.latch f).replyActive = s.replyActive := rfl
@[simp] theorem latch_blockReadCursor (f : Fatal) : (s.latch f).blockReadCursor = s.blockReadCursor := rfl

@[simp] theorem resetToIdle_state : (s.resetToIdle).state = .idle := rfl
@[simp] theorem resetToIdle_commandBuffer : (s.resetToIdle).commandBuffer = s.commandBuffer := rfl
@[simp] theorem resetToIdle_commandLength : (s.resetToIdle).commandLength = 0 := rfl
@[simp] theorem resetToIdle_cmd8ReplyIndex : (s.resetToIdle).cmd8ReplyIndex = s.cmd8ReplyIndex := rfl
@[simp] theorem resetToIdle_cmd58ReplyIndex : (s.resetToIdle).cmd58ReplyIndex = s.cmd58ReplyIndex := rfl
@[simp] theorem resetToIdle_blockReadIndex : (s.resetToIdle).blockReadIndex = s.blockReadIndex := rfl
@[simp] theorem resetToIdle_staging : (s.resetToIdle).staging = s.staging := rfl
@[simp] theorem resetToIdle_backingStore : (s.resetToIdle).backingStore = s.backingStore := rfl
@[simp] theorem resetToIdle_fault : (s.resetToIdle).fault = s.fault := rfl
@[simp] theorem resetToIdle_lifecycle : (s.resetToIdle).lifecycle = s.lifecycle := rfl
@[simp] theorem resetToIdle_pending : (s.resetToIdle).pending = s.pending := rfl
@[simp] theorem resetToIdle_delivered : (s.resetToIdle).delivered = s.delivered := rfl
@[simp] theorem resetToIdle_latencyCalls : (s.resetToIdle).latencyCalls = s.latencyCalls := rfl
@[simp] theorem resetToIdle_storedOpcode : (s.resetToIdle).storedOpcode = s.storedOpcode := rfl
@[simp] theorem resetToIdle_storedArgument : (s.resetToIdle).storedArgument = s.storedArgument := rfl
@[simp] theorem resetToIdle_storedTrailer : (s.resetToIdle).storedTrailer = s.storedTrailer := rfl
@[simp] theorem resetToIdle_storedFrame : (s.resetToIdle).storedFrame = s.storedFrame := rfl
@[simp] theorem resetToIdle_replyActive : (s.resetToIdle).replyActive = s.replyActive := rfl
@[simp] theorem resetToIdle_blockReadCursor : (s.resetToIdle).blockReadCursor = s.blockReadCursor := rfl

@[simp] theorem enterReady_state : (s.enterReady).state = .ready := rfl
@[simp] theorem enterReady_commandBuffer : (s.enterReady).commandBuffer = s.commandBuffer := rfl
@[simp] theorem enterReady_commandLength : (s.enterReady).commandLength = s.commandLength := rfl
@[simp] theorem enterReady_cmd8ReplyIndex : (s.enterReady).cmd8ReplyIndex = s.cmd8ReplyIndex := rfl
@[simp] theorem enterReady_cmd58ReplyIndex : (s.enterReady).cmd58ReplyIndex = s.cmd58ReplyIndex := rfl
@[simp] theorem enterReady_blockReadIndex : (s.enterReady).blockReadIndex = s.blockReadIndex := rfl
@[simp] theorem enterReady_staging : (s.enterReady).staging = s.staging := rfl
@[simp] theorem enterReady_backingStore : (s.enterReady).backingStore = s.backingStore := rfl
@[simp] theorem enterReady_fault : (s.enterReady).fault = s.fault := rfl
@[simp] theorem enterReady_lifecycle : (s.enterReady).lifecycle = s.lifecycle := rfl
@[simp] theorem enterReady_pending : (s.enterReady).pending = s.pending := rfl
@[simp] theorem enterReady_delivered : (s.enterReady).delivered = s.delivered := rfl
@[simp] theorem enterReady_latencyCalls : (s.enterReady).latencyCalls = s.latencyCalls := rfl
@[simp] theorem enterReady_storedOpcode : (s.enterReady).storedOpcode = s.storedOpcode := rfl
@[simp] theorem enterReady_storedArgument : (s.enterReady).storedArgument = s.storedArgument := rfl
@[simp] theorem enterReady_storedTrailer : (s.enterReady).storedTrailer = s.storedTrailer := rfl
@[simp] theorem enterReady_storedFrame : (s.enterReady).storedFrame = s.storedFrame := rfl
@[simp] theorem enterReady_replyActive : (s.enterReady).replyActive = s.replyActive := rfl
@[simp] theorem enterReady_blockReadCursor : (s.enterReady).blockReadCursor = s.blockReadCursor := rfl

@[simp] theorem beginFrame_state (v : Byte) (c : CardState) : (s.beginFrame v c).state = c := rfl
@[simp] theorem beginFrame_commandBuffer (v : Byte) (c : CardState) :
    (s.beginFrame v c).commandBuffer = s.commandBuffer.set 0 v := rfl
@[simp] theorem beginFrame_commandLength (v : Byte) (c : CardState) : (s.beginFrame v c).commandLength = 1 := rfl
@[simp] theorem beginFrame_cmd8ReplyIndex (v : Byte) (c : CardState) :
    (s.beginFrame v c).cmd8ReplyIndex = s.cmd8ReplyIndex := rfl
@[simp] theorem beginFrame_cmd58ReplyIndex (v : Byte) (c : CardState) :
    (s.beginFrame v c).cmd58ReplyIndex = s.cmd58ReplyIndex := rfl
@[simp] theorem beginFrame_blockReadIndex (v : Byte) (c : CardState) :
    (s.beginFrame v c).blockReadIndex = s.blockReadIndex := rfl
@[simp] theorem beginFrame_staging (v : Byte) (c : CardState) : (s.beginFrame v c).staging = s.staging := rfl
@[simp] theorem beginFrame_backingStore (v : Byte) (c : CardState) :
    (s.beginFrame v c).backingStore = s.backingStore := rfl
@[simp] theorem beginFrame_fault (v : Byte) (c : CardState) : (s.beginFrame v c).fault = s.fault := rfl
@[simp] theorem beginFrame_lifecycle (v : Byte) (c : CardState) : (s.beginFrame v c).lifecycle = s.lifecycle := rfl
@[simp] theorem beginFrame_pending (v : Byte) (c : CardState) : (s.beginFrame v c).pending = s.pending := rfl
@[simp] theorem beginFrame_delivered (v : Byte) (c : CardState) : (s.beginFrame v c).delivered = s.delivered := rfl
@[simp] theorem beginFrame_latencyCalls (v : Byte) (c : CardState) :
    (s.beginFrame v c).latencyCalls = s.latencyCalls := rfl
@[simp] theorem beginFrame_replyActive (v : Byte) (c : CardState) :
    (s.beginFrame v c).replyActive = s.replyActive := rfl
@[simp] theorem beginFrame_blockReadCursor (v : Byte) (c : CardState) :
    (s.beginFrame v c).blockReadCursor = s.blockReadCursor := rfl

@[simp] theorem appendByte_state (v : Byte) (h : s.commandLength.val + 1 < 32) :
    (s.appendByte v h).state = s.state := rfl
@[simp] theorem appendByte_commandBuffer (v : Byte) (h : s.commandLength.val + 1 < 32) :
    (s.appendByte v h).commandBuffer = s.commandBuffer.set s.commandLength.val v s.commandLength.isLt := rfl
@[simp] theorem appendByte_commandLength (v : Byte) (h : s.commandLength.val + 1 < 32) :
    (s.appendByte v h).commandLength = ⟨s.commandLength.val + 1, h⟩ := rfl
@[simp] theorem appendByte_cmd8ReplyIndex (v : Byte) (h : s.commandLength.val + 1 < 32) :
    (s.appendByte v h).cmd8ReplyIndex = s.cmd8ReplyIndex := rfl
@[simp] theorem appendByte_cmd58ReplyIndex (v : Byte) (h : s.commandLength.val + 1 < 32) :
    (s.appendByte v h).cmd58ReplyIndex = s.cmd58ReplyIndex := rfl
@[simp] theorem appendByte_blockReadIndex (v : Byte) (h : s.commandLength.val + 1 < 32) :
    (s.appendByte v h).blockReadIndex = s.blockReadIndex := rfl
@[simp] theorem appendByte_staging (v : Byte) (h : s.commandLength.val + 1 < 32) :
    (s.appendByte v h).staging = s.staging := rfl
@[simp] theorem appendByte_backingStore (v : Byte) (h : s.commandLength.val + 1 < 32) :
    (s.appendByte v h).backingStore = s.backingStore := rfl
@[simp] theorem appendByte_fault (v : Byte) (h : s.commandLength.val + 1 < 32) :
    (s.appendByte v h).fault = s.fault := rfl
@[simp] theorem appendByte_lifecycle (v : Byte) (h : s.commandLength.val + 1 < 32) :
    (s.appendByte v h).lifecycle = s.lifecycle := rfl
@[simp] theorem appendByte_pending (v : Byte) (h : s.commandLength.val + 1 < 32) :
    (s.appendByte v h).pending = s.pending := rfl
@[simp] theorem appendByte_delivered (v : Byte) (h : s.commandLength.val + 1 < 32) :
    (s.appendByte v h).delivered = s.delivered := rfl
@[simp] theorem appendByte_latencyCalls (v : Byte) (h : s.commandLength.val + 1 < 32) :
    (s.appendByte v h).latencyCalls = s.latencyCalls := rfl
@[simp] theorem appendByte_replyActive (v : Byte) (h : s.commandLength.val + 1 < 32) :
    (s.appendByte v h).replyActive = s.replyActive := rfl
@[simp] theorem appendByte_blockReadCursor (v : Byte) (h : s.commandLength.val + 1 < 32) :
    (s.appendByte v h).blockReadCursor = s.blockReadCursor := rfl

@[simp] theorem setCmd8Index_state (c : Fin 6) : (s.setCmd8Index c).state = s.state := rfl
@[simp] theorem setCmd8Index_commandBuffer (c : Fin 6) : (s.setCmd8Index c).commandBuffer = s.commandBuffer := rfl
@[simp] theorem setCmd8Index_commandLength (c : Fin 6) : (s.setCmd8Index c).commandLength = s.commandLength := rfl
@[simp] theorem setCmd8Index_cmd8ReplyIndex (c : Fin 6) : (s.setCmd8Index c).cmd8ReplyIndex = c := rfl
@[simp] theorem setCmd8Index_cmd58ReplyIndex (c : Fin 6) :
    (s.setCmd8Index c).cmd58ReplyIndex = s.cmd58ReplyIndex := rfl
@[simp] theorem setCmd8Index_blockReadIndex (c : Fin 6) : (s.setCmd8Index c).blockReadIndex = s.blockReadIndex := rfl
@[simp] theorem setCmd8Index_staging (c : Fin 6) : (s.setCmd8Index c).staging = s.staging := rfl
@[simp] theorem setCmd8Index_backingStore (c : Fin 6) : (s.setCmd8Index c).backingStore = s.backingStore := rfl
@[simp] theorem setCmd8Index_fault (c : Fin 6) : (s.setCmd8Index c).fault = s.fault := rfl
@[simp] theorem setCmd8Index_lifecycle (c : Fin 6) : (s.setCmd8Index c).lifecycle = s.lifecycle := rfl
@[simp] theorem setCmd8Index_pending (c : Fin 6) : (s.setCmd8Index c).pending = s.pending := rfl
@[simp] theorem setCmd8Index_delivered (c : Fin 6) : (s.setCmd8Index c).delivered = s.delivered := rfl
@[simp] theorem setCmd8Index_latencyCalls (c : Fin 6) : (s.setCmd8Index c).latencyCalls = s.latencyCalls := rfl
@[simp] theorem setCmd8Index_storedOpcode (c : Fin 6) : (s.setCmd8Index c).storedOpcode = s.storedOpcode := rfl
@[simp] theorem setCmd8Index_storedArgument (c : Fin 6) : (s.setCmd8Index c).storedArgument = s.storedArgument := rfl
@[simp] theorem setCmd8Index_storedTrailer (c : Fin 6) : (s.setCmd8Index c).storedTrailer = s.storedTrailer := rfl
@[simp] theorem setCmd8Index_storedFrame (c : Fin 6) : (s.setCmd8Index c).storedFrame = s.storedFrame := rfl
@[simp] theorem setCmd8Index_blockReadCursor (c : Fin 6) :
    (s.setCmd8Index c).blockReadCursor = s.blockReadCursor := rfl

@[simp] theorem setCmd58Index_state (c : Fin 6) : (s.setCmd58Index c).state = s.state := rfl
@[simp] theorem setCmd58Index_commandBuffer (c : Fin 6) : (s.setCmd58Index c).commandBuffer = s.commandBuffer := rfl
@[simp] theorem setCmd58Index_commandLength (c : Fin 6) : (s.setCmd58Index c).commandLength = s.commandLength := rfl
@[simp] theorem setCmd58Index_cmd8ReplyIndex (c : Fin 6) :
    (s.setCmd58Index c).cmd8ReplyIndex = s.cmd8ReplyIndex := rfl
@[simp] theorem setCmd58Index_cmd58ReplyIndex (c : Fin 6) : (s.setCmd58Index c).cmd58ReplyIndex = c := rfl
@[simp] theorem setCmd58Index_blockReadIndex (c : Fin 6) :
    (s.setCmd58Index c).blockReadIndex = s.blockReadIndex := rfl
@[simp] theorem setCmd58Index_staging (c : Fin 6) : (s.setCmd58Index c).staging = s.staging := rfl
@[simp] theorem setCmd58Index_backingStore (c : Fin 6) : (s.setCmd58Index c).backingStore = s.backingStore := rfl
@[simp] theorem setCmd58Index_fault (c : Fin 6) : (s.setCmd58Index c).fault = s.fault := rfl
@[simp] theorem setCmd58Index_lifecycle (c : Fin 6) : (s.setCmd58Index c).lifecycle = s.lifecycle := rfl
@[simp] theorem setCmd58Index_pending (c : Fin 6) : (s.setCmd58Index c).pending = s.pending := rfl
@[simp] theorem setCmd58Index_delivered (c : Fin 6) : (s.setCmd58Index c).delivered = s.delivered := rfl
@[simp] theorem setCmd58Index_latencyCalls (c : Fin 6) : (s.setCmd58Index c).latencyCalls = s.latencyCalls := rfl
@[simp] theorem setCmd58Index_storedOpcode (c : Fin 6) : (s.setCmd58Index c).storedOpcode = s.storedOpcode := rfl
@[simp] theorem setCmd58Index_storedArgument (c : Fin 6) :
    (s.setCmd58Index c).storedArgument = s.storedArgument := rfl
@[simp] theorem setCmd58Index_storedTrailer (c : Fin 6) : (s.setCmd58Index c).storedTrailer = s.storedTrailer := rfl
@[simp] theorem setCmd58Index_storedFrame (c : Fin 6) : (s.setCmd58Index c).storedFrame = s.storedFrame := rfl
@[simp] theorem setCmd58Index_blockReadCursor (c : Fin 6) :
    (s.setCmd58Index c).blockReadCursor = s.blockReadCursor := rfl

@[simp] theorem setBlockIndex_state (k : Option (Fin 513)) : (s.setBlockIndex k).state = s.state := rfl
@[simp] theorem setBlockIndex_commandBuffer (k : Option (Fin 513)) :
    (s.setBlockIndex k).commandBuffer = s.commandBuffer := rfl
@[simp] theorem setBlockIndex_commandLength (k : Option (Fin 513)) :
    (s.setBlockIndex k).commandLength = s.commandLength := rfl
@[simp] theorem setBlockIndex_cmd8ReplyIndex (k : Option (Fin 513)) :
    (s.setBlockIndex k).cmd8ReplyIndex = s.cmd8ReplyIndex := rfl
@[simp] theorem setBlockIndex_cmd58ReplyIndex (k : Option (Fin 513)) :
    (s.setBlockIndex k).cmd58ReplyIndex = s.cmd58ReplyIndex := rfl
@[simp] theorem setBlockIndex_blockReadIndex (k : Option (Fin 513)) : (s.setBlockIndex k).blockReadIndex = k := rfl
@[simp] theorem setBlockIndex_staging (k : Option (Fin 513)) : (s.setBlockIndex k).staging = s.staging := rfl
@[simp] theorem setBlockIndex_backingStore (k : Option (Fin 513)) :
    (s.setBlockIndex k).backingStore = s.backingStore := rfl
@[simp] theorem setBlockIndex_fault (k : Option (Fin 513)) : (s.setBlockIndex k).fault = s.fault := rfl
@[simp] theorem setBlockIndex_lifecycle (k : Option (Fin 513)) : (s.setBlockIndex k).lifecycle = s.lifecycle := rfl
@[simp] theorem setBlockIndex_pending (k : Option (Fin 513)) : (s.setBlockIndex k).pending = s.pending := rfl
@[simp] theorem setBlockIndex_delivered (k : Option (Fin 513)) : (s.setBlockIndex k).delivered = s.delivered := rfl
@[simp] theorem setBlockIndex_latencyCalls (k : Option (Fin 513)) :
    (s.setBlockIndex k).latencyCalls = s.latencyCalls := rfl
@[simp] theorem setBlockIndex_storedOpcode (k : Option (Fin 513)) :
    (s.setBlockIndex k).storedOpcode = s.storedOpcode := rfl
@[simp] theorem setBlockIndex_storedArgument (k : Option (Fin 513)) :
    (s.setBlockIndex k).storedArgument = s.storedArgument := rfl
@[simp] theorem setBlockIndex_storedTrailer (k : Option (Fin 513)) :
    (s.setBlockIndex k).storedTrailer = s.storedTrailer := rfl
@[simp] theorem setBlockIndex_storedFrame (k : Option (Fin 513)) :
    (s.setBlockIndex k).storedFrame = s.storedFrame := rfl

@[simp] theorem stageBlock_state (n : Nat) : (s.stageBlock n).state = s.state := rfl
@[simp] theorem stageBlock_commandBuffer (n : Nat) : (s.stageBlock n).commandBuffer = s.commandBuffer := rfl
@[simp] theorem stageBlock_commandLength (n : Nat) : (s.stageBlock n).commandLength = s.commandLength := rfl
@[simp] theorem stageBlock_cmd8ReplyIndex (n : Nat) : (s.stageBlock n).cmd8ReplyIndex = s.cmd8ReplyIndex := rfl
@[simp] theorem stageBlock_cmd58ReplyIndex (n : Nat) : (s.stageBlock n).cmd58ReplyIndex = s.cmd58ReplyIndex := rfl
@[simp] theorem stageBlock_blockReadIndex (n : Nat) : (s.stageBlock n).blockReadIndex = s.blockReadIndex := rfl
@[simp] theorem stageBlock_staging (n : Nat) : (s.stageBlock n).staging = stagedBlock s.backingStore n := rfl
@[simp] theorem stageBlock_backingStore (n : Nat) : (s.stageBlock n).backingStore = s.backingStore := rfl
@[simp] theorem stageBlock_fault (n : Nat) : (s.stageBlock n).fault = s.fault := rfl
@[simp] theorem stageBlock_lifecycle (n : Nat) : (s.stageBlock n).lifecycle = s.lifecycle := rfl
@[simp] theorem stageBlock_pending (n : Nat) : (s.stageBlock n).pending = s.pending := rfl
@[simp] theorem stageBlock_delivered (n : Nat) : (s.stageBlock n).delivered = s.delivered := rfl
@[simp] theorem stageBlock_latencyCalls (n : Nat) : (s.stageBlock n).latencyCalls = s.latencyCalls := rfl
@[simp] theorem stageBlock_storedOpcode (n : Nat) : (s.stageBlock n).storedOpcode = s.storedOpcode := rfl
@[simp] theorem stageBlock_storedArgument (n : Nat) : (s.stageBlock n).storedArgument = s.storedArgument := rfl
@[simp] theorem stageBlock_storedTrailer (n : Nat) : (s.stageBlock n).storedTrailer = s.storedTrailer := rfl
@[simp] theorem stageBlock_storedFrame (n : Nat) : (s.stageBlock n).storedFrame = s.storedFrame := rfl
@[simp] theorem stageBlock_replyActive (n : Nat) : (s.stageBlock n).replyActive = s.replyActive := rfl
@[simp] theorem stageBlock_blockReadCursor (n : Nat) : (s.stageBlock n).blockReadCursor = s.blockReadCursor := rfl

@[simp] theorem latency_state (ms : Nat) : (s.latency ms).state = s.state := rfl
@[simp] theorem latency_commandBuffer (ms : Nat) : (s.latency ms).commandBuffer = s.commandBuffer := rfl
@[simp] theorem latency_commandLength (ms : Nat) : (s.latency ms).commandLength = s.commandLength := rfl
@[simp] theorem latency_cmd8ReplyIndex (ms : Nat) : (s.latency ms).cmd8ReplyIndex = s.cmd8ReplyIndex := rfl
@[simp] theorem latency_cmd58ReplyIndex (ms : Nat) : (s.latency ms).cmd58ReplyIndex = s.cmd58ReplyIndex := rfl
@[simp] theorem latency_blockReadIndex (ms : Nat) : (s.latency ms).blockReadIndex = s.blockReadIndex := rfl
@[simp] theorem latency_staging (ms : Nat) : (s.latency ms).staging = s.staging := rfl
@[simp] theorem latency_backingStore (ms : Nat) : (s.latency ms).backingStore = s.backingStore := rfl
@[simp] theorem latency_fault (ms : Nat) : (s.latency ms).fault = s.fault := rfl
@[simp] theorem latency_lifecycle (ms : Nat) : (s.latency ms).lifecycle = s.lifecycle := rfl
@[simp] theorem latency_pending (ms : Nat) : (s.latency ms).pending = s.pending := rfl
@[simp] theorem latency_delivered (ms : Nat) : (s.latency ms).delivered = s.delivered := rfl
@[simp] theorem latency_latencyCalls (ms : Nat) : (s.latency ms).latencyCalls = ms :: s.latencyCalls := rfl
@[simp] theorem latency_storedOpcode (ms : Nat) : (s.latency ms).storedOpcode = s.storedOpcode := rfl
@[simp] theorem latency_storedArgument (ms : Nat) : (s.latency ms).storedArgument = s.storedArgument := rfl
@[simp] theorem latency_storedTrailer (ms : Nat) : (s.latency ms).storedTrailer = s.storedTrailer := rfl
@[simp] theorem latency_storedFrame (ms : Nat) : (s.latency ms).storedFrame = s.storedFrame := rfl
@[simp] theorem latency_replyActive (ms : Nat) : (s.latency ms).replyActive = s.replyActive := rfl
@[simp] theorem latency_blockReadCursor (ms : Nat) : (s.latency ms).blockReadCursor = s.blockReadCursor := rfl

@[simp] theorem widened_state (w : Nat) : (s.widened w).state = s.state := rfl
@[simp] theorem widened_commandBuffer (w : Nat) : (s.widened w).commandBuffer = s.commandBuffer := rfl
@[simp] theorem widened_commandLength (w : Nat) : (s.widened w).commandLength = s.commandLength := rfl
@[simp] theorem widened_cmd8ReplyIndex (w : Nat) : (s.widened w).cmd8ReplyIndex = s.cmd8ReplyIndex := rfl
@[simp] theorem widened_cmd58ReplyIndex (w : Nat) : (s.widened w).cmd58ReplyIndex = s.cmd58ReplyIndex := rfl
@[simp] theorem widened_blockReadIndex (w : Nat) : (s.widened w).blockReadIndex = s.blockReadIndex := rfl
@[simp] theorem widened_staging (w : Nat) : (s.widened w).staging = s.staging := rfl
@[simp] theorem widened_backingStore (w : Nat) : (s.widened w).backingStore = s.backingStore := rfl
@[simp] theorem widened_fault (w : Nat) : (s.widened w).fault = s.fault := rfl
@[simp] theorem widened_lifecycle (w : Nat) : (s.widened w).lifecycle = s.lifecycle := rfl
@[simp] theorem widened_pending (w : Nat) : (s.widened w).pending = s.pending := rfl
@[simp] theorem widened_latencyCalls (w : Nat) : (s.widened w).latencyCalls = s.latencyCalls := rfl
@[simp] theorem widened_storedOpcode (w : Nat) : (s.widened w).storedOpcode = s.storedOpcode := rfl
@[simp] theorem widened_storedArgument (w : Nat) : (s.widened w).storedArgument = s.storedArgument := rfl
@[simp] theorem widened_storedTrailer (w : Nat) : (s.widened w).storedTrailer = s.storedTrailer := rfl
@[simp] theorem widened_storedFrame (w : Nat) : (s.widened w).storedFrame = s.storedFrame := rfl
@[simp] theorem widened_replyActive (w : Nat) : (s.widened w).replyActive = s.replyActive := rfl
@[simp] theorem widened_blockReadCursor (w : Nat) : (s.widened w).blockReadCursor = s.blockReadCursor := rfl

@[simp] theorem construct_state : (s.construct).state = .idle := rfl
@[simp] theorem construct_commandBuffer : (s.construct).commandBuffer = s.commandBuffer := rfl
@[simp] theorem construct_commandLength : (s.construct).commandLength = 0 := rfl
@[simp] theorem construct_cmd8ReplyIndex : (s.construct).cmd8ReplyIndex = 0 := rfl
@[simp] theorem construct_cmd58ReplyIndex : (s.construct).cmd58ReplyIndex = 0 := rfl
@[simp] theorem construct_blockReadIndex : (s.construct).blockReadIndex = none := rfl
@[simp] theorem construct_staging : (s.construct).staging = s.staging := rfl
@[simp] theorem construct_backingStore : (s.construct).backingStore = s.backingStore := rfl
@[simp] theorem construct_fault : (s.construct).fault = none := rfl
@[simp] theorem construct_lifecycle : (s.construct).lifecycle = .constructed := rfl
@[simp] theorem construct_pending : (s.construct).pending = s.pending := rfl
@[simp] theorem construct_delivered : (s.construct).delivered = s.delivered := rfl
@[simp] theorem construct_latencyCalls : (s.construct).latencyCalls = s.latencyCalls := rfl
@[simp] theorem construct_storedOpcode : (s.construct).storedOpcode = s.storedOpcode := rfl
@[simp] theorem construct_storedArgument : (s.construct).storedArgument = s.storedArgument := rfl
@[simp] theorem construct_storedTrailer : (s.construct).storedTrailer = s.storedTrailer := rfl
@[simp] theorem construct_storedFrame : (s.construct).storedFrame = s.storedFrame := rfl

@[simp] theorem accept_state (bytes : List Byte) : (s.accept bytes).state = s.state := rfl
@[simp] theorem accept_commandBuffer (bytes : List Byte) : (s.accept bytes).commandBuffer = s.commandBuffer := rfl
@[simp] theorem accept_commandLength (bytes : List Byte) : (s.accept bytes).commandLength = s.commandLength := rfl
@[simp] theorem accept_cmd8ReplyIndex (bytes : List Byte) : (s.accept bytes).cmd8ReplyIndex = s.cmd8ReplyIndex := rfl
@[simp] theorem accept_cmd58ReplyIndex (bytes : List Byte) :
    (s.accept bytes).cmd58ReplyIndex = s.cmd58ReplyIndex := rfl
@[simp] theorem accept_blockReadIndex (bytes : List Byte) : (s.accept bytes).blockReadIndex = s.blockReadIndex := rfl
@[simp] theorem accept_staging (bytes : List Byte) : (s.accept bytes).staging = s.staging := rfl
@[simp] theorem accept_backingStore (bytes : List Byte) :
    (s.accept bytes).backingStore = s.backingStore.load 0 bytes := rfl
@[simp] theorem accept_fault (bytes : List Byte) : (s.accept bytes).fault = s.fault := rfl
@[simp] theorem accept_lifecycle (bytes : List Byte) : (s.accept bytes).lifecycle = .running := rfl
@[simp] theorem accept_pending (bytes : List Byte) : (s.accept bytes).pending = s.pending := rfl
@[simp] theorem accept_delivered (bytes : List Byte) : (s.accept bytes).delivered = s.delivered := rfl
@[simp] theorem accept_latencyCalls (bytes : List Byte) : (s.accept bytes).latencyCalls = s.latencyCalls := rfl
@[simp] theorem accept_storedOpcode (bytes : List Byte) : (s.accept bytes).storedOpcode = s.storedOpcode := rfl
@[simp] theorem accept_storedArgument (bytes : List Byte) : (s.accept bytes).storedArgument = s.storedArgument := rfl
@[simp] theorem accept_storedTrailer (bytes : List Byte) : (s.accept bytes).storedTrailer = s.storedTrailer := rfl
@[simp] theorem accept_storedFrame (bytes : List Byte) : (s.accept bytes).storedFrame = s.storedFrame := rfl
@[simp] theorem accept_replyActive (bytes : List Byte) : (s.accept bytes).replyActive = s.replyActive := rfl
@[simp] theorem accept_blockReadCursor (bytes : List Byte) :
    (s.accept bytes).blockReadCursor = s.blockReadCursor := rfl

@[simp] theorem after_state (rest : List HostOp) (r : HostResult) : (s.after rest r).state = s.state := rfl
@[simp] theorem after_commandBuffer (rest : List HostOp) (r : HostResult) :
    (s.after rest r).commandBuffer = s.commandBuffer := rfl
@[simp] theorem after_commandLength (rest : List HostOp) (r : HostResult) :
    (s.after rest r).commandLength = s.commandLength := rfl
@[simp] theorem after_cmd8ReplyIndex (rest : List HostOp) (r : HostResult) :
    (s.after rest r).cmd8ReplyIndex = s.cmd8ReplyIndex := rfl
@[simp] theorem after_cmd58ReplyIndex (rest : List HostOp) (r : HostResult) :
    (s.after rest r).cmd58ReplyIndex = s.cmd58ReplyIndex := rfl
@[simp] theorem after_blockReadIndex (rest : List HostOp) (r : HostResult) :
    (s.after rest r).blockReadIndex = s.blockReadIndex := rfl
@[simp] theorem after_staging (rest : List HostOp) (r : HostResult) : (s.after rest r).staging = s.staging := rfl
@[simp] theorem after_backingStore (rest : List HostOp) (r : HostResult) :
    (s.after rest r).backingStore = s.backingStore := rfl
@[simp] theorem after_fault (rest : List HostOp) (r : HostResult) : (s.after rest r).fault = s.fault := rfl
@[simp] theorem after_lifecycle (rest : List HostOp) (r : HostResult) :
    (s.after rest r).lifecycle = s.lifecycle := rfl
@[simp] theorem after_pending (rest : List HostOp) (r : HostResult) : (s.after rest r).pending = rest := rfl
@[simp] theorem after_delivered (rest : List HostOp) (r : HostResult) :
    (s.after rest r).delivered = r :: s.delivered := rfl
@[simp] theorem after_latencyCalls (rest : List HostOp) (r : HostResult) :
    (s.after rest r).latencyCalls = s.latencyCalls := rfl
@[simp] theorem after_storedOpcode (rest : List HostOp) (r : HostResult) :
    (s.after rest r).storedOpcode = s.storedOpcode := rfl
@[simp] theorem after_storedArgument (rest : List HostOp) (r : HostResult) :
    (s.after rest r).storedArgument = s.storedArgument := rfl
@[simp] theorem after_storedTrailer (rest : List HostOp) (r : HostResult) :
    (s.after rest r).storedTrailer = s.storedTrailer := rfl
@[simp] theorem after_storedFrame (rest : List HostOp) (r : HostResult) :
    (s.after rest r).storedFrame = s.storedFrame := rfl
@[simp] theorem after_replyActive (rest : List HostOp) (r : HostResult) :
    (s.after rest r).replyActive = s.replyActive := rfl
@[simp] theorem after_blockReadCursor (rest : List HostOp) (r : HostResult) :
    (s.after rest r).blockReadCursor = s.blockReadCursor := rfl

@[simp] theorem afterFatal_state (rest : List HostOp) (f : Fatal) : (s.afterFatal rest f).state = s.state := rfl
@[simp] theorem afterFatal_commandBuffer (rest : List HostOp) (f : Fatal) :
    (s.afterFatal rest f).commandBuffer = s.commandBuffer := rfl
@[simp] theorem afterFatal_commandLength (rest : List HostOp) (f : Fatal) :
    (s.afterFatal rest f).commandLength = s.commandLength := rfl
@[simp] theorem afterFatal_cmd8ReplyIndex (rest : List HostOp) (f : Fatal) :
    (s.afterFatal rest f).cmd8ReplyIndex = s.cmd8ReplyIndex := rfl
@[simp] theorem afterFatal_cmd58ReplyIndex (rest : List HostOp) (f : Fatal) :
    (s.afterFatal rest f).cmd58ReplyIndex = s.cmd58ReplyIndex := rfl
@[simp] theorem afterFatal_blockReadIndex (rest : List HostOp) (f : Fatal) :
    (s.afterFatal rest f).blockReadIndex = s.blockReadIndex := rfl
@[simp] theorem afterFatal_staging (rest : List HostOp) (f : Fatal) : (s.afterFatal rest f).staging = s.staging := rfl
@[simp] theorem afterFatal_backingStore (rest : List HostOp) (f : Fatal) :
    (s.afterFatal rest f).backingStore = s.backingStore := rfl
@[simp] theorem afterFatal_fault (rest : List HostOp) (f : Fatal) : (s.afterFatal rest f).fault = some f := rfl
@[simp] theorem afterFatal_lifecycle (rest : List HostOp) (f : Fatal) :
    (s.afterFatal rest f).lifecycle = s.lifecycle := rfl
@[simp] theorem afterFatal_pending (rest : List HostOp) (f : Fatal) : (s.afterFatal rest f).pending = rest := rfl
@[simp] theorem afterFatal_delivered (rest : List HostOp) (f : Fatal) :
    (s.afterFatal rest f).delivered = .fatal f :: s.delivered := rfl
@[simp] theorem afterFatal_latencyCalls (rest : List HostOp) (f : Fatal) :
    (s.afterFatal rest f).latencyCalls = s.latencyCalls := rfl
@[simp] theorem afterFatal_storedOpcode (rest : List HostOp) (f : Fatal) :
    (s.afterFatal rest f).storedOpcode = s.storedOpcode := rfl
@[simp] theorem afterFatal_storedArgument (rest : List HostOp) (f : Fatal) :
    (s.afterFatal rest f).storedArgument = s.storedArgument := rfl
@[simp] theorem afterFatal_storedTrailer (rest : List HostOp) (f : Fatal) :
    (s.afterFatal rest f).storedTrailer = s.storedTrailer := rfl
@[simp] theorem afterFatal_storedFrame (rest : List HostOp) (f : Fatal) :
    (s.afterFatal rest f).storedFrame = s.storedFrame := rfl
@[simp] theorem afterFatal_replyActive (rest : List HostOp) (f : Fatal) :
    (s.afterFatal rest f).replyActive = s.replyActive := rfl
@[simp] theorem afterFatal_blockReadCursor (rest : List HostOp) (f : Fatal) :
    (s.afterFatal rest f).blockReadCursor = s.blockReadCursor := rfl

end Sys2Proof.Machine.State
end

