-- ==== Sys2Proof/Laws/Exec.lean ====
section
/-! SUPPORT. What the shared operations and `exec` can do, said once: each lemma lists every case in which the
operation answers a next state, so that later proofs cite it instead of unfolding a meaning. -/

namespace Sys2Proof.Machine

open Literals

@[simp] theorem complete_eq (s : State) : complete s = .next (s.deliver .done) := rfl

@[simp] theorem returnByte_eq (b : Byte) (s : State) : returnByte b s = .next (s.deliver (.byte b)) := rfl

@[simp] theorem raiseFatal_eq (c : FatalCause) (d : FatalInfo) (s : State) :
    raiseFatal c d s = .next ((s.latch ⟨c, d⟩).deliver (.fatal ⟨c, d⟩)) := rfl

@[simp] theorem stagedBlock_zero (m : Memory) (n : Nat) : (stagedBlock m n)[0] = startToken := by
  unfold stagedBlock
  rw [Vector.getElem_ofFn]
  exact if_pos rfl

theorem stagedBlock_succ (m : Memory) (n k : Nat) (h : k + 1 < 513) :
    (stagedBlock m n)[k + 1]'h = m.byteAt (n * blockBytes + k) := by
  unfold stagedBlock
  rw [Vector.getElem_ofFn]
  exact if_neg (Nat.succ_ne_zero k)

theorem blockInStore_iff (n : Nat) : blockInStore n = true ↔ n ≤ 8191 := by
  unfold blockInStore blockBytes storeBytes
  rw [decide_eq_true_iff]
  omega

theorem replyActive_eq_false_iff (s : State) :
    s.replyActive = false ↔ s.cmd8ReplyIndex = 0 ∧ s.cmd58ReplyIndex = 0 ∧ s.blockReadIndex = none := by
  simp [State.replyActive, and_assoc]

theorem isReceiving_eq_false_iff (c : CardState) : c.isReceiving = false ↔ c = .idle ∨ c = .ready := by
  cases c <;> simp [CardState.isReceiving]

/-- Every next state of a five-byte read: a byte with the cursor advanced, or the fifth with the reply over. -/
theorem fiveByteRead_next {table : Vector Byte 5} {c : Fin 6} {set : State → Fin 6 → State} {s t : State}
    (h : fiveByteRead table c set s = .next t) :
    (∃ lt : c.val < 4, t = (set s ⟨c.val + 1, by omega⟩).deliver (.byte table[c.val])) ∨
      (c.val = 4 ∧ t = (set s 0).resetToIdle.deliver (.byte table[4])) := by
  unfold fiveByteRead at h
  split at h
  · rename_i lt
    split at h
    · rename_i last
      have four : c.val = 4 := by simp only [shortReplyBytes] at last; omega
      injection h with h
      refine .inr ⟨four, ?_⟩
      simp only [← h, four]
    · rename_i last
      injection h with h
      exact .inl ⟨by simp only [shortReplyBytes] at last; omega, h.symm⟩
  · exact nomatch h

/-- A five-byte read answers a next state whenever its cursor is on a byte of the table. -/
theorem fiveByteRead_answers (table : Vector Byte 5) {c : Fin 6} (set : State → Fin 6 → State) (s : State)
    (h : c.val < 5) : ∃ t, fiveByteRead table c set s = .next t := by
  unfold fiveByteRead
  rw [dif_pos h]
  split <;> exact ⟨_, rfl⟩

/-- Every next state of an instruction. -/
inductive ExecStep : Instr → State → State → Prop
  | filler (s) : ExecStep .idle s (s.deliver .done)
  | cmd0 (a r s) : ExecStep (.cmd0 a r) s (s.resetToIdle.deliver (.byte cmd0Reply))
  | cmd16 (a r s) : ExecStep (.cmd16 a r) s (s.resetToIdle.deliver (.byte cmd16Reply))
  | cmd55 (a r s) : ExecStep (.cmd55 a r) s (s.resetToIdle.deliver (.byte cmd55Reply))
  | acmd41 (a r s) : ExecStep (.acmd41 a r) s (s.resetToIdle.deliver (.byte acmd41Reply))
  | cmd8Mid (a r) (s : State) (lt : s.cmd8ReplyIndex.val < 4) :
      ExecStep (.cmd8 a r) s
        ((s.setCmd8Index ⟨s.cmd8ReplyIndex.val + 1, by omega⟩).deliver
          (.byte cmd8Reply[s.cmd8ReplyIndex.val]))
  | cmd8Last (a r) (s : State) (last : s.cmd8ReplyIndex.val = 4) :
      ExecStep (.cmd8 a r) s ((s.setCmd8Index 0).resetToIdle.deliver (.byte cmd8Reply[4]))
  | cmd58Mid (a r) (s : State) (lt : s.cmd58ReplyIndex.val < 4) :
      ExecStep (.cmd58 a r) s
        ((s.setCmd58Index ⟨s.cmd58ReplyIndex.val + 1, by omega⟩).deliver
          (.byte cmd58Reply[s.cmd58ReplyIndex.val]))
  | cmd58Last (a r) (s : State) (last : s.cmd58ReplyIndex.val = 4) :
      ExecStep (.cmd58 a r) s ((s.setCmd58Index 0).resetToIdle.deliver (.byte cmd58Reply[4]))
  | blockFirst (a r) (s : State) (rest : s.blockReadIndex = none) (inStore : a.toNat ≤ 8191) :
      ExecStep (.cmd17 a r) s
        ((((s.stageBlock a.toNat).latency latencyMs).setBlockIndex (some 0)).deliver (.byte startToken))
  | blockOut (a r) (s : State) (rest : s.blockReadIndex = none) (outside : 8191 < a.toNat) :
      ExecStep (.cmd17 a r) s
        ((s.latch ⟨.addressRange, .blockNumber a.toNat⟩).deliver
          (.fatal ⟨.addressRange, .blockNumber a.toNat⟩))
  | blockMid (a r) (s : State) (k : Fin 513) (at_ : s.blockReadIndex = some k) (lt : k.val + 1 < 512) :
      ExecStep (.cmd17 a r) s
        ((s.setBlockIndex (some ⟨k.val + 1, by omega⟩)).deliver
          (.byte (s.staging[k.val + 1]'(Nat.lt_succ_of_lt lt))))
  | blockLast (a r) (s : State) (k : Fin 513) (at_ : s.blockReadIndex = some k) (last : k.val + 1 = 512) :
      ExecStep (.cmd17 a r) s
        ((s.setBlockIndex none).resetToIdle.deliver (.byte s.staging[512]))

theorem execCmd17_next {a : Argument} {r : Byte} {s t : State} (h : execCmd17 a r s = .next t) :
    ExecStep (.cmd17 a r) s t := by
  unfold execCmd17 at h
  split at h
  · rename_i rest
    unfold blockReadFirst at h
    split at h
    · rename_i inside
      injection h with h
      rw [← h, stagedBlock_zero]
      exact .blockFirst a r s rest ((blockInStore_iff _).1 inside)
    · rename_i outside
      injection h with h
      rw [← h]
      refine .blockOut a r s rest ?_
      by_contra le
      exact outside ((blockInStore_iff _).2 (by simp only [blockNumber]; omega))
  · rename_i k at_
    unfold blockReadNext at h
    split at h
    · rename_i lt
      split at h
      · rename_i last
        have h512 : k.val + 1 = 512 := last
        injection h with h
        simp only [h512] at h
        exact h ▸ .blockLast a r s k at_ h512
      · rename_i last
        injection h with h
        exact h ▸ .blockMid a r s k at_ (by simp only [blockBytes] at last; omega)
    · exact nomatch h

theorem exec_next {i : Instr} {s t : State} (h : exec i s = .next t) : ExecStep i s t := by
  cases i with
  | cmd0 a r => injection h with h; exact h ▸ .cmd0 a r s
  | cmd16 a r => injection h with h; exact h ▸ .cmd16 a r s
  | cmd55 a r => injection h with h; exact h ▸ .cmd55 a r s
  | acmd41 a r => injection h with h; exact h ▸ .acmd41 a r s
  | idle => injection h with h; exact h ▸ .filler s
  | cmd17 a r => exact execCmd17_next h
  | cmd8 a r =>
    have h' : execCmd8 a r s = .next t := h
    unfold execCmd8 at h'
    rcases fiveByteRead_next h' with ⟨lt, rfl⟩ | ⟨last, rfl⟩
    · exact .cmd8Mid a r s lt
    · exact .cmd8Last a r s last
  | cmd58 a r =>
    have h' : execCmd58 a r s = .next t := h
    unfold execCmd58 at h'
    rcases fiveByteRead_next h' with ⟨lt, rfl⟩ | ⟨last, rfl⟩
    · exact .cmd58Mid a r s lt
    · exact .cmd58Last a r s last

/-- No instruction is refused. -/
theorem exec_not_refused (i : Instr) (s : State) (r : Refusal) : exec i s ≠ .refused r := by
  intro h
  cases i <;> simp only [exec, execIdle, execCmd0, execCmd16, execCmd55, execAcmd41, execCmd8, execCmd58, execCmd17,
    complete_eq, returnByte_eq, fiveByteRead, blockReadFirst, blockReadNext, raiseFatal_eq] at h
  all_goals repeat' split at h
  all_goals exact nomatch h

end Sys2Proof.Machine
end

