-- ==== Sys2Proof/Laws/Window.lean ====
section
/-! SUPPORT. The two registers are different offsets of the window, whatever the parameters are (20_memory.md R41). -/

namespace Sys2Proof.Config

theorem rxOffset_ne_txOffset : rxOffset ≠ txOffset := by
  unfold rxOffset
  split
  · omega
  · assumption

theorem txOffset_lt_windowBytes : txOffset < windowBytes := by unfold windowBytes; omega

theorem rxOffset_lt_windowBytes : rxOffset < windowBytes := by unfold windowBytes; omega

end Sys2Proof.Config
end

