-- ==== Sys2Proof/Laws/Access.lean ====
section
/-! SUPPORT. What each shared operation and each operation on the registers answers, case by case, as equations to
rewrite with. -/

namespace Sys2Proof.Machine

open Literals

variable {s : State} {v : Byte}

/-- An address in the window has its offset. -/
theorem windowOffset_add {offset : Nat} (lt : offset < Config.windowBytes) :
    windowOffset (Config.base + offset) = some offset := by
  unfold windowOffset
  rw [if_pos (by omega), Nat.add_sub_cancel_left]

/-- An address below or above the window has none. -/
theorem windowOffset_outside {address : Nat}
    (outside : address < Config.base ∨ Config.base + Config.windowBytes ≤ address) : windowOffset address = none := by
  unfold windowOffset
  rw [if_neg (by omega)]

/-- An address has an offset exactly when it is in the window, and it is the distance from its base. -/
theorem windowOffset_eq_some_iff (address offset : Nat) :
    windowOffset address = some offset ↔ address = Config.base + offset ∧ offset < Config.windowBytes := by
  constructor
  · intro inside
    unfold windowOffset at inside
    split at inside
    · injection inside with inside
      omega
    · exact nomatch inside
  · rintro ⟨rfl, lt⟩
    exact windowOffset_add lt

theorem txWrite_filler (open_ : s.state.isReceiving = false) : txWrite filler s = .next (s.deliver .done) := by
  unfold txWrite
  rw [open_]
  rfl

theorem txWrite_begin {c : CardState} (open_ : s.state.isReceiving = false) (recv : recvState v = some c)
    (quiet : s.replyActive = false) : txWrite v s = .next ((s.beginFrame v c).deliver .done) := by
  have ne : v ≠ filler := fun e => filler_not_mem_opcodes (e ▸ recvState_mem recv)
  unfold txWrite txWriteOpcode
  rw [open_, if_neg (by decide), if_neg ne, recv]
  simp only [quiet]
  rfl

theorem txWrite_overlap (open_ : s.state.isReceiving = false) (mem : v ∈ opcodes) (active : s.replyActive = true) :
    txWrite v s = raiseFatal .replyOverlap (.byte v) s := by
  have ne : v ≠ filler := fun e => filler_not_mem_opcodes (e ▸ mem)
  obtain ⟨c, recv⟩ := exists_recvState mem
  unfold txWrite txWriteOpcode
  rw [open_, if_neg (by decide), if_neg ne, recv]
  simp only [active]
  rfl

theorem txWrite_unknown (open_ : s.state.isReceiving = false) (ne : v ≠ filler) (mem : v ∉ opcodes) :
    txWrite v s = raiseFatal .unknownCommand (.byte v) s := by
  unfold txWrite txWriteOpcode
  rw [open_, if_neg (by decide), if_neg ne, (recvState_eq_none_iff v).2 mem]

theorem txWrite_append (recv : s.state.isReceiving = true) (lt : s.commandLength.val < 6) :
    txWrite v s = .next ((s.appendByte v (by omega)).deliver .done) := by
  unfold txWrite txWriteFrame
  rw [if_pos recv, if_neg (show ¬ frameBytes ≤ s.commandLength.val from Nat.not_le.2 lt), dif_neg (by omega)]
  rfl

theorem txWrite_overrun (recv : s.state.isReceiving = true) (le : 6 ≤ s.commandLength.val) :
    txWrite v s = raiseFatal .frameOverrun (.byte v) s := by
  unfold txWrite txWriteFrame
  rw [if_pos recv, if_pos (show frameBytes ≤ s.commandLength.val from le)]

theorem rxRead_wait (ne : s.state ≠ .ready) (lt : s.commandLength.val < 6) :
    rxRead s = .next (s.deliver (.byte filler)) := by
  unfold rxRead rxFiller
  rw [if_neg ne, if_neg (show ¬ frameBytes ≤ s.commandLength.val from Nat.not_le.2 lt)]
  rfl

theorem rxRead_turnaround (ne : s.state ≠ .ready) (le : 6 ≤ s.commandLength.val) :
    rxRead s = .next (s.enterReady.deliver (.byte filler)) := by
  unfold rxRead rxFiller
  rw [if_neg ne, if_pos (show frameBytes ≤ s.commandLength.val from le)]
  rfl

theorem rxRead_dispatch {i : Instr} (ready : s.state = .ready)
    (stored : frameInstr s.storedOpcode s.storedArgument s.storedTrailer = some i) : rxRead s = exec i s := by
  unfold rxRead rxDispatch
  rw [if_pos ready, stored]

theorem rxRead_unknownDispatch (ready : s.state = .ready) (mem : s.storedOpcode ∉ opcodes) :
    rxRead s = raiseFatal .unknownDispatch (.byte s.storedOpcode) s := by
  unfold rxRead rxDispatch
  rw [if_pos ready, (frameInstr_eq_none_iff _ _ _).2 mem]

theorem fiveByteRead_mid (table : Vector Byte 5) {c : Fin 6} (set : State → Fin 6 → State) (lt : c.val < 4) :
    fiveByteRead table c set s = .next ((set s ⟨c.val + 1, by omega⟩).deliver (.byte table[c.val])) := by
  unfold fiveByteRead
  rw [dif_pos (by omega), if_neg (show c.val + 1 ≠ shortReplyBytes by unfold shortReplyBytes; omega)]
  rfl

theorem fiveByteRead_last (table : Vector Byte 5) {c : Fin 6} (set : State → Fin 6 → State) (last : c.val = 4) :
    fiveByteRead table c set s = .next ((set s 0).resetToIdle.deliver (.byte table[4])) := by
  obtain rfl : c = 4 := Fin.ext last
  rfl

theorem execCmd17_first {a : Argument} {r : Byte} (rest : s.blockReadIndex = none) (inStore : a.toNat ≤ 8191) :
    execCmd17 a r s = .next
      ((((s.stageBlock a.toNat).latency latencyMs).setBlockIndex (some 0)).deliver (.byte startToken)) := by
  unfold execCmd17 blockReadFirst blockNumber
  rw [rest]
  simp only [(blockInStore_iff _).2 inStore, if_true, stagedBlock_zero, returnByte_eq]

theorem execCmd17_outside {a : Argument} {r : Byte} (rest : s.blockReadIndex = none) (outside : 8191 < a.toNat) :
    execCmd17 a r s = raiseFatal .addressRange (.blockNumber a.toNat) s := by
  unfold execCmd17 blockReadFirst blockNumber
  rw [rest]
  have : blockInStore a.toNat = false := by
    rw [Bool.eq_false_iff]
    intro h
    have := (blockInStore_iff _).1 h
    omega
  simp only [this]
  rfl

theorem execCmd17_mid {a : Argument} {r : Byte} {k : Fin 513} (at_ : s.blockReadIndex = some k)
    (lt : k.val + 1 < 512) :
    execCmd17 a r s = .next
      ((s.setBlockIndex (some ⟨k.val + 1, by omega⟩)).deliver
        (.byte (s.staging[k.val + 1]'(Nat.lt_succ_of_lt lt)))) := by
  unfold execCmd17 blockReadNext
  rw [at_]
  simp only
  rw [dif_pos (by omega), if_neg (show k.val + 1 ≠ blockBytes from Nat.ne_of_lt lt)]
  rfl

theorem execCmd17_last {a : Argument} {r : Byte} {k : Fin 513} (at_ : s.blockReadIndex = some k)
    (last : k.val + 1 = 512) :
    execCmd17 a r s = .next
      ((s.setBlockIndex none).resetToIdle.deliver (.byte s.staging[512])) := by
  unfold execCmd17 blockReadNext
  rw [at_]
  simp only
  rw [dif_pos (by omega), if_pos (show k.val + 1 = blockBytes from last)]
  simp only [last, returnByte_eq]

end Sys2Proof.Machine
end

