-- ==== Sys2Proof/Laws/Memory.lean ====
section
/-! SUPPORT. The laws of the backing store: a write is read back, leaves every other address alone, and keeps the
canonical form; so does the load of an image. -/

namespace Sys2Proof.Machine.Memory

@[simp] theorem byteAt_nil (a : Nat) : byteAt [] a = Config.image a := rfl

@[simp] theorem wf_nil : wf [] = true := rfl

theorem wfFrom_mono {m : Memory} {lo lo' : Nat} (h : wfFrom lo m = true) (le : lo' ≤ lo) : wfFrom lo' m = true := by
  cases m with
  | nil => rfl
  | cons e m =>
    obtain ⟨k, b⟩ := e
    simp only [wfFrom, Bool.and_eq_true, decide_eq_true_eq] at h ⊢
    exact ⟨⟨⟨by omega, h.1.1.2⟩, h.1.2⟩, h.2⟩

/-- Below its first address a canonical memory reads as the image. -/
theorem byteAt_of_lt {m : Memory} {lo a : Nat} (h : wfFrom lo m = true) (lt : a < lo) :
    byteAt m a = Config.image a := by
  induction m generalizing lo with
  | nil => rfl
  | cons e m ih =>
    obtain ⟨k, b⟩ := e
    simp only [wfFrom, Bool.and_eq_true, decide_eq_true_eq] at h
    rw [byteAt, if_neg (by omega)]
    exact ih h.2 (by omega)

theorem wfFrom_write {m : Memory} {lo a : Nat} (b : Byte) (h : wfFrom lo m = true) (le : lo ≤ a)
    (lt : a < Literals.storeBytes) : wfFrom lo (write m a b) = true := by
  induction m generalizing lo with
  | nil =>
    by_cases hb : b = Config.image a
    · simp [write, hb, wfFrom]
    · simp [write, hb, wfFrom, le, lt]
  | cons e m ih =>
    obtain ⟨k, c⟩ := e
    have hw := h
    simp only [wfFrom, Bool.and_eq_true, decide_eq_true_eq] at hw
    obtain ⟨⟨⟨hk, hks⟩, hc⟩, hm⟩ := hw
    unfold write
    by_cases hak : a < k
    · by_cases hb : b = Config.image a
      · simpa [hak, hb] using h
      · simp [hak, hb, wfFrom, le, lt, hks, hc, hm]
    · by_cases hek : a = k
      · subst hek
        by_cases hb : b = Config.image a
        · simpa [hb] using wfFrom_mono hm (by omega)
        · simp [hb, wfFrom, le, lt, hm]
      · simp [hak, hek, wfFrom, hk, hks, hc, ih hm (by omega)]

/-- A write keeps the canonical form. -/
theorem wf_write {m : Memory} {a : Nat} (b : Byte) (h : m.wf = true) (lt : a < Literals.storeBytes) :
    (write m a b).wf = true :=
  wfFrom_write b h (Nat.zero_le a) lt

theorem byteAt_write_same {m : Memory} {lo a : Nat} (b : Byte) (h : wfFrom lo m = true) :
    byteAt (write m a b) a = b := by
  induction m generalizing lo with
  | nil =>
    by_cases hb : b = Config.image a
    · simp [write, hb]
    · simp [write, hb, byteAt]
  | cons e m ih =>
    obtain ⟨k, c⟩ := e
    have hw := h
    simp only [wfFrom, Bool.and_eq_true, decide_eq_true_eq] at hw
    unfold write
    by_cases hak : a < k
    · by_cases hb : b = Config.image a
      · have : byteAt m a = Config.image a := byteAt_of_lt hw.2 (by omega)
        simp [hak, hb, byteAt, this, show k ≠ a by omega]
      · simp [hak, hb, byteAt]
    · by_cases hek : a = k
      · subst hek
        by_cases hb : b = Config.image a
        · simp [hb, byteAt_of_lt hw.2 (Nat.lt_succ_self a)]
        · simp [hb, byteAt]
      · simp [hak, hek, byteAt, show k ≠ a by omega, ih hw.2]

theorem byteAt_write_other (m : Memory) {a x : Nat} (b : Byte) (ne : x ≠ a) :
    byteAt (write m a b) x = byteAt m x := by
  induction m with
  | nil => by_cases hb : b = Config.image a <;> simp [write, hb, byteAt, ne.symm]
  | cons e m ih =>
    obtain ⟨k, c⟩ := e
    unfold write
    by_cases hak : a < k
    · by_cases hb : b = Config.image a <;> simp [hak, hb, byteAt, ne.symm]
    · by_cases hek : a = k
      · subst hek
        by_cases hb : b = Config.image a <;> simp [hb, byteAt, ne.symm]
      · simp only [hak, hek, if_false, byteAt, ih]

/-- The load of an image keeps the canonical form. -/
theorem wf_load {m : Memory} {a : Nat} {bytes : List Byte} (h : m.wf = true)
    (fits : a + bytes.length ≤ Literals.storeBytes) : (load m a bytes).wf = true := by
  induction bytes generalizing m a with
  | nil => exact h
  | cons b bytes ih =>
    simp only [List.length_cons] at fits
    exact ih (wf_write b h (by omega)) (by omega)

/-- The load of an image leaves the addresses below it alone. -/
theorem byteAt_load_below (m : Memory) {a x : Nat} (bytes : List Byte) (lt : x < a) :
    byteAt (load m a bytes) x = byteAt m x := by
  induction bytes generalizing m a with
  | nil => rfl
  | cons b bytes ih => rw [load, ih _ (by omega), byteAt_write_other _ _ (by omega)]

/-- A loaded byte is read back. -/
theorem byteAt_load {m : Memory} {a : Nat} {bytes : List Byte} (h : m.wf = true)
    (fits : a + bytes.length ≤ Literals.storeBytes) (k : Nat) (lt : k < bytes.length) :
    byteAt (load m a bytes) (a + k) = bytes[k] := by
  induction bytes generalizing m a k with
  | nil => exact absurd lt (Nat.not_lt_zero k)
  | cons b bytes ih =>
    simp only [List.length_cons] at fits lt
    rw [load]
    cases k with
    | zero => rw [byteAt_load_below _ _ (by omega)]; exact byteAt_write_same b h
    | succ k =>
      rw [show a + (k + 1) = a + 1 + k by omega, ih (wf_write b h (by omega)) (by omega) k (by omega)]
      rfl

end Sys2Proof.Machine.Memory
end

