-- ==== Sys2Proof/Laws/PerInstr.lean ====
section
/-! SUPPORT. Said of every instruction, one lemma a constructor: it is well formed and its encoding is exactly one item,
one byte for the filler and six for a command (30_encoding.md R60, R61). -/

namespace Sys2Proof.Laws.EncodeWellFormed

/-- The instruction is well formed and its bytes are one complete item. -/
def Statement (i : Instr) : Prop := i.wellFormed = true ∧ completeItem (encode i) = true

theorem cmd0 (arg : Argument) (trailer : Byte) : Statement (.cmd0 arg trailer) := ⟨rfl, rfl⟩
theorem cmd8 (arg : Argument) (trailer : Byte) : Statement (.cmd8 arg trailer) := ⟨rfl, rfl⟩
theorem cmd16 (arg : Argument) (trailer : Byte) : Statement (.cmd16 arg trailer) := ⟨rfl, rfl⟩
theorem cmd17 (arg : Argument) (trailer : Byte) : Statement (.cmd17 arg trailer) := ⟨rfl, rfl⟩
theorem acmd41 (arg : Argument) (trailer : Byte) : Statement (.acmd41 arg trailer) := ⟨rfl, rfl⟩
theorem cmd55 (arg : Argument) (trailer : Byte) : Statement (.cmd55 arg trailer) := ⟨rfl, rfl⟩
theorem cmd58 (arg : Argument) (trailer : Byte) : Statement (.cmd58 arg trailer) := ⟨rfl, rfl⟩
theorem idle : Statement .idle := ⟨rfl, rfl⟩

end Sys2Proof.Laws.EncodeWellFormed
end

