-- ==== Sys2Proof/Laws/Step.lean ====
section
/-! SUPPORT. What an operation and a step can do, said once: each relation lists every case in which it answers a next
state. -/

namespace Sys2Proof.Machine

open Literals

/-- `s` with the fatal latched and delivered. -/
def State.faulted (s : State) (c : FatalCause) (d : FatalInfo) : State :=
  (s.latch ⟨c, d⟩).deliver (.fatal ⟨c, d⟩)

/-- Every next state of an operation on the registers and the reserved offsets. -/
inductive RegisterStep : HostOp → State → State → Prop
  | filler (s : State) (open_ : s.state.isReceiving = false) : RegisterStep (.txWrite filler) s (s.deliver .done)
  | begin (v : Byte) (s : State) (open_ : s.state.isReceiving = false) (c : CardState) (recv : recvState v = some c)
      (quiet : s.replyActive = false) : RegisterStep (.txWrite v) s ((s.beginFrame v c).deliver .done)
  | overlap (v : Byte) (s : State) (open_ : s.state.isReceiving = false) (mem : v ∈ opcodes)
      (active : s.replyActive = true) : RegisterStep (.txWrite v) s (s.faulted .replyOverlap (.byte v))
  | unknown (v : Byte) (s : State) (open_ : s.state.isReceiving = false) (ne : v ≠ Literals.filler)
      (mem : v ∉ opcodes) : RegisterStep (.txWrite v) s (s.faulted .unknownCommand (.byte v))
  | append (v : Byte) (s : State) (recv : s.state.isReceiving = true) (lt : s.commandLength.val < 6) :
      RegisterStep (.txWrite v) s ((s.appendByte v (by omega)).deliver .done)
  | overrun (v : Byte) (s : State) (recv : s.state.isReceiving = true) (le : 6 ≤ s.commandLength.val) :
      RegisterStep (.txWrite v) s (s.faulted .frameOverrun (.byte v))
  | wait (s : State) (ne : s.state ≠ .ready) (lt : s.commandLength.val < 6) :
      RegisterStep .rxRead s (s.deliver (.byte Literals.filler))
  | turnaround (s : State) (ne : s.state ≠ .ready) (le : 6 ≤ s.commandLength.val) :
      RegisterStep .rxRead s (s.enterReady.deliver (.byte Literals.filler))
  | dispatch (s t : State) (ready : s.state = .ready) (i : Instr)
      (stored : frameInstr s.storedOpcode s.storedArgument s.storedTrailer = some i) (run : ExecStep i s t) :
      RegisterStep .rxRead s t
  | unknownDispatch (s : State) (ready : s.state = .ready) (mem : s.storedOpcode ∉ opcodes) :
      RegisterStep .rxRead s (s.faulted .unknownDispatch (.byte s.storedOpcode))
  | otherWrite (offset : Nat) (v : Byte) (s : State) : RegisterStep (.otherWrite offset v) s (s.deliver .done)
  | otherRead (offset : Nat) (s : State) : RegisterStep (.otherRead offset) s (s.deliver (.byte reservedRead))

theorem txWrite_next {v : Byte} {s t : State} (h : txWrite v s = .next t) : RegisterStep (.txWrite v) s t := by
  unfold txWrite at h
  split at h
  · rename_i recv
    unfold txWriteFrame at h
    split at h
    · rename_i le
      injection h with h
      exact h ▸ .overrun v s recv le
    · rename_i lt
      split at h
      · rename_i full
        simp only [frameBytes] at lt
        omega
      · injection h with h
        exact h ▸ .append v s recv (by simp only [frameBytes] at lt; omega)
  · rename_i open_
    have closed : s.state.isReceiving = false := by simpa using open_
    unfold txWriteOpcode at h
    split at h
    · rename_i eq
      injection h with h
      subst eq
      exact h ▸ .filler s closed
    · rename_i ne
      split at h
      · rename_i none_
        injection h with h
        exact h ▸ .unknown v s closed ne ((recvState_eq_none_iff v).1 none_)
      · rename_i c some_
        split at h
        · rename_i active
          injection h with h
          exact h ▸ .overlap v s closed (recvState_mem some_) active
        · rename_i quiet
          injection h with h
          exact h ▸ .begin v s closed c some_ (by simpa using quiet)

theorem rxRead_next {s t : State} (h : rxRead s = .next t) : RegisterStep .rxRead s t := by
  unfold rxRead at h
  split at h
  · rename_i ready
    unfold rxDispatch at h
    split at h
    · rename_i i stored
      exact .dispatch s t ready i stored (exec_next h)
    · rename_i none_
      injection h with h
      exact h ▸ .unknownDispatch s ready ((frameInstr_eq_none_iff _ _ _).1 none_)
  · rename_i ne
    unfold rxFiller at h
    injection h with h
    split at h
    · rename_i le; exact h ▸ .turnaround s ne le
    · rename_i lt; exact h ▸ .wait s ne (by simp only [frameBytes] at lt; omega)

theorem registerOp_next {op : HostOp} {s t : State} (h : registerOp op s = .next t) : RegisterStep op s t := by
  cases op with
  | txWrite v => exact txWrite_next h
  | rxRead => exact rxRead_next h
  | otherWrite offset v => injection h with h; exact h ▸ .otherWrite offset v s
  | otherRead offset => injection h with h; exact h ▸ .otherRead offset s
  | store a n d => exact nomatch h
  | load a n => exact nomatch h
  | construct => exact nomatch h
  | deviceReset image => exact nomatch h

theorem widenNewest_next {w : Nat} {o : Outcome} {t : State} (h : widenNewest w o = .next t) :
    ∃ u, o = .next u ∧ t = u.widened w := by
  cases o with
  | next u => injection h with h; exact ⟨u, rfl, h.symm⟩
  | fault r => exact nomatch h
  | refused r => exact nomatch h

/-- Every next state of an operation. -/
inductive PerformStep : HostOp → State → State → Prop
  | register {op : HostOp} {s t : State} (running : s.lifecycle = .running) (run : RegisterStep op s t) :
      PerformStep op s t
  | store {a n d offset : Nat} {s t : State} (pos : 1 ≤ n) (fits : d < 256 ^ n) (running : s.lifecycle = .running)
      (inside : windowOffset a = some offset) (run : RegisterStep (routeStore offset d) s t) :
      PerformStep (.store a n d) s t
  | load {a n offset : Nat} {s u : State} (pos : 1 ≤ n) (running : s.lifecycle = .running)
      (inside : windowOffset a = some offset) (run : RegisterStep (routeLoad offset) s u) :
      PerformStep (.load a n) s (u.widened (8 * n))
  | construct {s : State} (absent : s.lifecycle = .absent) : PerformStep .construct s (s.construct.deliver .done)
  | loaded {s : State} {bytes : List Byte} (constructed : s.lifecycle = .constructed)
      (size : bytes.length = storeBytes) :
      PerformStep (.deviceReset (some bytes)) s
        ((s.accept bytes).deliver .done)
  | badSize {s : State} {bytes : List Byte} (constructed : s.lifecycle = .constructed)
      (size : bytes.length ≠ storeBytes) :
      PerformStep (.deviceReset (some bytes)) s (s.faulted .configError (.imageSize bytes.length))
  | missing {s : State} (constructed : s.lifecycle = .constructed) :
      PerformStep (.deviceReset none) s (s.faulted .configError .imageMissing)

theorem whenRunning_next {s t : State} {o : Outcome} (h : whenRunning s o = .next t) :
    s.lifecycle = .running ∧ o = .next t := by
  unfold whenRunning at h
  split at h
  · rename_i running; exact ⟨running, h⟩
  · exact nomatch h

theorem perform_next {op : HostOp} {s t : State} (h : perform op s = .next t) : PerformStep op s t := by
  unfold perform at h
  split at h
  · exact nomatch h
  · rename_i formed
    cases op with
    | txWrite v => exact .register (whenRunning_next h).1 (txWrite_next (whenRunning_next h).2)
    | rxRead => exact .register (whenRunning_next h).1 (rxRead_next (whenRunning_next h).2)
    | otherWrite offset v =>
      exact .register (whenRunning_next h).1 (registerOp_next (op := .otherWrite offset v) (whenRunning_next h).2)
    | otherRead offset =>
      exact .register (whenRunning_next h).1 (registerOp_next (op := .otherRead offset) (whenRunning_next h).2)
    | store a n d =>
      obtain ⟨running, h⟩ := whenRunning_next h
      unfold storeAccess at h
      split at h
      · exact nomatch h
      · rename_i inside
        simp only [HostOp.wellFormed, Bool.not_eq_false, Bool.and_eq_true, decide_eq_true_eq] at formed
        exact .store formed.1 formed.2 running inside (registerOp_next h)
    | load a n =>
      obtain ⟨running, h⟩ := whenRunning_next h
      unfold loadAccess at h
      split at h
      · exact nomatch h
      · rename_i inside
        obtain ⟨u, hu, rfl⟩ := widenNewest_next h
        simp only [HostOp.wellFormed, Bool.not_eq_false, decide_eq_true_eq] at formed
        exact .load formed running inside (registerOp_next hu)
    | construct =>
      simp only at h
      split at h
      · rename_i absent; injection h with h; exact h ▸ .construct absent
      · exact nomatch h
    | deviceReset image =>
      simp only at h
      split at h
      · rename_i constructed
        unfold deviceReset at h
        cases image with
        | none => injection h with h; exact h ▸ .missing constructed
        | some bytes =>
          simp only at h
          split at h
          · rename_i size; injection h with h; exact h ▸ .loaded constructed size
          · rename_i size; injection h with h; exact h ▸ .badSize constructed size
      · exact nomatch h

/-- Every next state of a step: nothing waits and nothing changes, or the oldest operation is performed. -/
theorem step_next {s t : State} (h : step s = .next t) :
    s.fault = none ∧
      ((s.pending = [] ∧ t = s) ∨
        ∃ op rest, s.pending = op :: rest ∧ PerformStep op (s.withPending rest) t) := by
  unfold step at h
  split at h
  · exact nomatch h
  · rename_i healthy
    refine ⟨healthy, ?_⟩
    split at h
    · rename_i none_; injection h with h; exact .inl ⟨none_, h.symm⟩
    · rename_i op rest eq; exact .inr ⟨op, rest, eq, perform_next h⟩

/-- The step of a block in service performs the next operation. -/
theorem step_of_next {s : State} {op : HostOp} {rest : List HostOp} (h : s.Next op rest) :
    step s = perform op (s.withPending rest) := by
  obtain ⟨healthy, -, waiting⟩ := h
  unfold step
  rw [healthy, waiting]

/-- In service, an operation on the registers is performed as it stands. -/
theorem perform_register {op : HostOp} {s : State} (running : s.lifecycle = .running) (reg : op.onRegisters = true) :
    perform op s = registerOp op s := by
  cases op <;> simp_all [perform, HostOp.onRegisters, HostOp.wellFormed, whenRunning, registerOp]

/-- The step of a block in service, for an operation on the registers. -/
theorem step_register {s : State} {op : HostOp} {rest : List HostOp} (h : s.Next op rest)
    (reg : op.onRegisters = true) : step s = registerOp op (s.withPending rest) := by
  rw [step_of_next h]
  exact perform_register h.2.1 reg

/-- In service, a well-formed store is performed as its routing says. -/
theorem perform_store {s : State} {address bytes data : Nat} (running : s.lifecycle = .running) (pos : 1 ≤ bytes)
    (fits : data < 256 ^ bytes) : perform (.store address bytes data) s = storeAccess address data s := by
  simp [perform, HostOp.wellFormed, whenRunning, running, pos, fits]

/-- In service, a well-formed load is performed as its routing says. -/
theorem perform_load {s : State} {address bytes : Nat} (running : s.lifecycle = .running) (pos : 1 ≤ bytes) :
    perform (.load address bytes) s = loadAccess address bytes s := by
  simp [perform, HostOp.wellFormed, whenRunning, running, pos]

/-- What a load at the incoming-data register answers: the read, its result widened. -/
theorem loadAccess_rx (bytes : Nat) (s : State) :
    loadAccess (Config.base + Config.rxOffset) bytes s = widenNewest (8 * bytes) (rxRead s) := by
  unfold loadAccess
  rw [windowOffset_add Config.rxOffset_lt_windowBytes]
  simp only [routeLoad, if_true]
  rfl

end Sys2Proof.Machine
end

