-- ==== Sys2Proof/Tests/Slice0.lean ====
section
/-! SUPPORT. Tests. Expected values are those of spec/95_test_vectors.md and of the encodings written out in
spec/30_encoding.md; each test names its source. After them, one witness or more for every obligation with hypotheses. -/

namespace Sys2Proof.Tests

open Machine

/-! ## Small states -/

/-- A command buffer that begins with these bytes. -/
def buffer (bytes : List Byte) : Vector Byte 32 := Vector.ofFn fun k => bytes.getD k.val 0

/-- The reset state with operations waiting. -/
def idleWith (ops : List HostOp) : State := { State.reset with pending := ops }

/-- A frame of which `length` bytes have been written. -/
def receivingWith (c : CardState) (bytes : List Byte) (length : Fin 32) (ops : List HostOp) : State :=
  { idleWith ops with state := c, commandBuffer := buffer bytes, commandLength := length }

/-- A complete frame after the turnaround read, no reply byte served. -/
def readyWith (bytes : List Byte) (ops : List HostOp) : State := receivingWith .ready bytes 6 ops

/-- A CMD8 of whose reply `k` bytes have been served. -/
def cmd8Served (k : Fin 6) (ops : List HostOp) : State :=
  { readyWith [0x48, 0x00, 0x00, 0x01, 0xAA, 0x87] ops with cmd8ReplyIndex := k }

/-- A CMD58 of whose reply `k` bytes have been served. -/
def cmd58Served (k : Fin 6) (ops : List HostOp) : State :=
  { readyWith [0x7A, 0x00, 0x00, 0x00, 0x00, 0xFF] ops with cmd58ReplyIndex := k }

/-- A CMD17 of block 0 of which the start token and `k` data bytes have been served. -/
def blockServed (k : Fin 513) (ops : List HostOp) : State :=
  { readyWith [0x51, 0x00, 0x00, 0x00, 0x00, 0xFF] ops with
    staging := stagedBlock [] 0
    blockReadIndex := some k }

def answers : Outcome → Bool
  | .next _ => true
  | .fault _ => false
  | .refused _ => false

def stateOf : Outcome → State
  | .next t => t
  | .fault _ => State.reset
  | .refused _ => State.reset

theorem eq_next {o : Outcome} (h : answers o = true) : o = .next (stateOf o) := by
  cases o with
  | next t => rfl
  | fault r => exact nomatch h
  | refused r => exact nomatch h

/-- `(state, command_length, cmd8_reply_index, cmd58_reply_index, block_read_index)`, as 95_test_vectors.md writes it. -/
def summary (o : Outcome) : Option (CardState × Nat × Nat × Nat × Int) :=
  match o with
  | .next t => some (t.state, t.commandLength.val, t.cmd8ReplyIndex.val, t.cmd58ReplyIndex.val, t.blockReadCursor)
  | .fault _ => none
  | .refused _ => none

/-- The newest result. -/
def result (o : Outcome) : Option HostResult :=
  match o with
  | .next t => t.delivered.head?
  | .fault _ => none
  | .refused _ => none

/-! ## Well-formedness: each check refuses an ill-formed term -/

theorem test_wf_accepts : completeItem [0x40, 0x00, 0x00, 0x00, 0x00, 0x95] = true ∧ completeItem [0xFF] = true := by decide
theorem test_wf_empty : completeItem [] = false := by decide
theorem test_wf_short_frame : completeItem [0x40, 0x00, 0x00, 0x00, 0x00] = false := by decide
theorem test_wf_long_frame : completeItem [0x40, 0x00, 0x00, 0x00, 0x00, 0x95, 0xFF] = false := by decide
theorem test_wf_unknown_opcode : completeItem [0x41, 0x00, 0x00, 0x00, 0x00, 0x95] = false := by decide
theorem test_wf_filler_with_tail : completeItem [0xFF, 0x00] = false := by decide
theorem test_wf_zero_width_load : (HostOp.load 0 0).wellFormed = false := by decide
theorem test_wf_zero_width_store : (HostOp.store 0 0 0).wellFormed = false := by decide
theorem test_wf_store_data_too_wide : (HostOp.store 0 1 0x100).wellFormed = false := by decide

/-! ## Decoding, from words written out by 30_encoding.md R60, R62 (the trailers and arguments of R72, S5 and T44) -/

theorem test_decode_cmd0 : decode [0b01000000, 0x00, 0x00, 0x00, 0x00, 0x95] = .ok (.cmd0 0 0x95, []) := by decide
theorem test_decode_cmd8 : decode [0b01001000, 0x00, 0x00, 0x01, 0xAA, 0x87] = .ok (.cmd8 0x1AA 0x87, []) := by decide
theorem test_decode_cmd16 : decode [0b01010000, 0x00, 0x00, 0x02, 0x00, 0xFF] = .ok (.cmd16 0x200 0xFF, []) := by decide
theorem test_decode_cmd17 : decode [0b01010001, 0x00, 0x80, 0x00, 0x00, 0xFF] = .ok (.cmd17 0x800000 0xFF, []) := by
  decide
theorem test_decode_acmd41 : decode [0b01101001, 0x40, 0x00, 0x00, 0x00, 0xFF] = .ok (.acmd41 0x40000000 0xFF, []) := by
  decide
theorem test_decode_cmd55 : decode [0b01110111, 0x00, 0x00, 0x00, 0x00, 0xFF] = .ok (.cmd55 0 0xFF, []) := by decide
theorem test_decode_cmd58 : decode [0b01111010, 0x00, 0x00, 0x00, 0x00, 0xFF] = .ok (.cmd58 0 0xFF, []) := by decide
theorem test_decode_idle : decode [0b11111111, 0x40] = .ok (.idle, [0x40]) := by decide
theorem test_decode_truncated : decode [0x40, 0x00] = .error (.truncatedFrame 0x40) := by decide
/-- `0xC0` shares its low six bits with CMD0 (T5). -/
theorem test_decode_unknown : decode [0xC0, 0x00, 0x00, 0x00, 0x00, 0x95] = .error (.unknownCommand 0xC0) := by decide
theorem test_decode_nothing : decode [] = .error .nothing := by decide

theorem test_table_word_cmd16 : decodeTableWord 48 0x5000000200FF = some (.cmd16 0x200 0xFF) := by decide
theorem test_table_word_unknown : decodeTableWord 48 0xC00000000095 = none ∧ decodeTableWord 8 0x00 = none := by decide

/-! ## Framing (95_test_vectors.md section 2.1) -/

/-- T2. -/
theorem test_opcode_starts_frame :
    summary (step (idleWith [.txWrite 0x40])) = some (.receivingCmd0, 1, 0, 0, -1) := by decide +kernel
/-- T3: ACMD41, whose state is not the one of the number before it. -/
theorem test_opcode_acmd41 :
    summary (step (idleWith [.txWrite 0x69])) = some (.receivingAcmd41, 1, 0, 0, -1) := by decide +kernel
/-- T4. -/
theorem test_unknown_byte : summary (step (idleWith [.txWrite 0x00])) = some (.idle, 0, 0, 0, -1) ∧
    result (step (idleWith [.txWrite 0x00])) = some (.fatal ⟨.unknownCommand, .byte 0x00⟩) := by decide +kernel
/-- T6, its last write: `0x77` inside a frame is data. -/
theorem test_opcode_in_frame_is_data :
    (stateOf (step (receivingWith .receivingCmd17 [0x51, 0x40, 0x48, 0xFF, 0x51] 5 [.txWrite 0x77]))).storedTrailer =
      0x77 := by decide +kernel
/-- T8. -/
theorem test_seventh_byte :
    summary (step (receivingWith .receivingCmd0 [0x40, 0, 0, 0, 0, 0x95] 6 [.txWrite 0xFF])) =
      some (.receivingCmd0, 6, 0, 0, -1) ∧
    result (step (receivingWith .receivingCmd0 [0x40, 0, 0, 0, 0, 0x95] 6 [.txWrite 0xFF])) =
      some (.fatal ⟨.frameOverrun, .byte 0xFF⟩) := by decide +kernel
/-- T10, its last write. -/
theorem test_reply_overlap : summary (step (cmd8Served 1 [.txWrite 0x40])) = some (.ready, 6, 1, 0, -1) ∧
    result (step (cmd8Served 1 [.txWrite 0x40])) = some (.fatal ⟨.replyOverlap, .byte 0x40⟩) := by decide +kernel
/-- T11: an unknown byte during a reply. -/
theorem test_unknown_before_overlap : result (step (cmd8Served 1 [.txWrite 0x00])) =
    some (.fatal ⟨.unknownCommand, .byte 0x00⟩) := by decide +kernel
/-- T12: an opcode before any reply byte was read. -/
theorem test_command_dropped : summary (step (readyWith [0x40, 0, 0, 0, 0, 0x95] [.txWrite 0x48])) =
    some (.receivingCmd8, 1, 0, 0, -1) := by decide +kernel
/-- T9, a filler in the middle of a reply. -/
theorem test_filler_in_ready : summary (step (cmd8Served 1 [.txWrite 0xFF])) = some (.ready, 6, 1, 0, -1) ∧
    result (step (cmd8Served 1 [.txWrite 0xFF])) = some .done := by decide +kernel
/-- T15: a read of an incomplete frame. -/
theorem test_read_of_incomplete_frame :
    summary (step (receivingWith .receivingCmd0 [0x40] 5 [.rxRead])) = some (.receivingCmd0, 5, 0, 0, -1) ∧
    result (step (receivingWith .receivingCmd0 [0x40] 5 [.rxRead])) = some (.byte 0xFF) := by decide +kernel
/-- T21: the turnaround read. -/
theorem test_turnaround :
    summary (step (receivingWith .receivingCmd0 [0x40] 6 [.rxRead])) = some (.ready, 6, 0, 0, -1) ∧
    result (step (receivingWith .receivingCmd0 [0x40] 6 [.rxRead])) = some (.byte 0xFF) := by decide +kernel

/-! ## Replies (sections 2.2 and 2.3) -/

/-- T23: argument and trailer do not matter. -/
theorem test_cmd0_reply : summary (step (readyWith [0x40, 0x12, 0x34, 0x56, 0x78, 0x00] [.rxRead])) =
      some (.idle, 0, 0, 0, -1) ∧
    result (step (readyWith [0x40, 0x12, 0x34, 0x56, 0x78, 0x00] [.rxRead])) = some (.byte 0x01) := by decide +kernel
/-- S5. -/
theorem test_cmd16_reply :
    result (step (readyWith [0x50, 0x00, 0x00, 0x02, 0x00, 0xFF] [.rxRead])) = some (.byte 0x00) := by decide +kernel
/-- S5. -/
theorem test_cmd55_reply :
    result (step (readyWith [0x77, 0x00, 0x00, 0x00, 0x00, 0xFF] [.rxRead])) = some (.byte 0x00) := by decide +kernel
/-- T25: with no CMD55 before it. -/
theorem test_acmd41_reply :
    result (step (readyWith [0x69, 0x00, 0x00, 0x00, 0x00, 0xFF] [.rxRead])) = some (.byte 0x00) := by decide +kernel
/-- T30, its last read. -/
theorem test_cmd8_second_byte : summary (step (cmd8Served 1 [.rxRead])) = some (.ready, 6, 2, 0, -1) ∧
    result (step (cmd8Served 1 [.rxRead])) = some (.byte 0x00) := by decide +kernel
/-- T31, the read that returns `0xAA`. -/
theorem test_cmd8_last_byte : summary (step (cmd8Served 4 [.rxRead])) = some (.idle, 0, 0, 0, -1) ∧
    result (step (cmd8Served 4 [.rxRead])) = some (.byte 0xAA) := by decide +kernel
/-- T34: the `0xFF` is the third reply byte. -/
theorem test_cmd58_third_byte : summary (step (cmd58Served 2 [.rxRead])) = some (.ready, 6, 0, 3, -1) ∧
    result (step (cmd58Served 2 [.rxRead])) = some (.byte 0xFF) := by decide +kernel
/-- T35. -/
theorem test_cmd58_last_byte : summary (step (cmd58Served 4 [.rxRead])) = some (.idle, 0, 0, 0, -1) ∧
    result (step (cmd58Served 4 [.rxRead])) = some (.byte 0x00) := by decide +kernel

/-! ## The block read (section 2.4); the cells listed are bytes of the image `PAT` -/

/-- The last block with its first and last byte as `PAT` has them (T42). -/
def lastBlock : State :=
  { readyWith [0x51, 0x00, 0x00, 0x1F, 0xFF, 0xFF] [.rxRead] with
    backingStore := [(0x3FFE00, 0xFF), (0x3FFFFF, 0xFE)] }

/-- T42: the start token is served, the block stands in `staging` from index 1 on, one latency call of 30 ms. -/
theorem test_cmd17_last_block : summary (step lastBlock) = some (.ready, 6, 0, 0, 0) ∧
    result (step lastBlock) = some (.byte 0xFE) ∧ (stateOf (step lastBlock)).staging[1] = 0xFF ∧
    (stateOf (step lastBlock)).staging[512] = 0xFE ∧ (stateOf (step lastBlock)).latencyCalls = [30] := by decide +kernel
/-- T43: the first block past the end, and no latency call. -/
theorem test_cmd17_outside : summary (step (readyWith [0x51, 0x00, 0x00, 0x20, 0x00, 0xFF] [.rxRead])) =
      some (.ready, 6, 0, 0, -1) ∧
    result (step (readyWith [0x51, 0x00, 0x00, 0x20, 0x00, 0xFF] [.rxRead])) =
      some (.fatal ⟨.addressRange, .blockNumber 8192⟩) ∧
    (stateOf (step (readyWith [0x51, 0x00, 0x00, 0x20, 0x00, 0xFF] [.rxRead]))).latencyCalls = [] := by decide +kernel
/-- T44, T45: no wrap of a 32-bit product or sum. -/
theorem test_cmd17_no_wrap : result (step (readyWith [0x51, 0x00, 0x80, 0x00, 0x00, 0xFF] [.rxRead])) =
      some (.fatal ⟨.addressRange, .blockNumber 8388608⟩) ∧
    result (step (readyWith [0x51, 0xFF, 0xFF, 0xFF, 0xFF, 0xFF] [.rxRead])) =
      some (.fatal ⟨.addressRange, .blockNumber 4294967295⟩) := by decide +kernel
/-- T40, "the 513th sets it to 512 and back to -1". -/
theorem test_cmd17_last_byte : summary (step (blockServed 511 [.rxRead])) = some (.idle, 0, 0, 0, -1) := by decide +kernel
/-- T14. -/
theorem test_block_overlap : summary (step (blockServed 0 [.txWrite 0x51])) = some (.ready, 6, 0, 0, 0) ∧
    result (step (blockServed 0 [.txWrite 0x51])) = some (.fatal ⟨.replyOverlap, .byte 0x51⟩) := by decide +kernel

/-! ## Window and reset (section 2.5) -/

/-- T60. -/
theorem test_reserved_read : result (step (idleWith [.otherRead 7])) = some (.byte 0x00) := by decide +kernel
/-- T63: an image of no byte. -/
theorem test_config_error :
    result (step { idleWith [.deviceReset (some [])] with lifecycle := .constructed }) =
      some (.fatal ⟨.configError, .imageSize 0⟩) := by decide +kernel
/-- 20_memory.md R42, the width of the result of a 16-bit load of one byte. -/
theorem test_widen : (HostResult.byte 0xFE).widen 16 = .word 16 0x00FE := by decide

/-! ## The host's two questions -/

theorem test_fetch_cmd0 :
    result (step (State.reset.withFetchWord 48 0x400000000000)) = some (.byte 0x01) := by decide +kernel
theorem test_fetch_cmd17 :
    result (step (State.reset.withFetchWord 48 0x510000000000)) = some (.byte 0xFE) := by decide +kernel
theorem test_fetch_idle : result (step (State.reset.withFetchWord 8 0xFF)) = some .done := by decide +kernel

/-! ## Witnesses -/

theorem inv_of {s : State} (running : s.lifecycle = .running) (protocol : s.ProtocolInv) (store : s.backingStore = []) :
    s.Inv := by
  refine ⟨fun _ => protocol, fun constructed => ?_, ?_⟩
  · rw [running] at constructed
    exact nomatch constructed
  · rw [store]
    rfl

theorem idleWith_inv (ops : List HostOp) : (idleWith ops).Inv :=
  inv_of rfl ⟨fun _ => ⟨rfl, rfl⟩, nofun, nofun, ⟨Nat.zero_le 4, (absurd rfl ·)⟩, ⟨Nat.zero_le 4, (absurd rfl ·)⟩,
    (absurd rfl ·), ⟨.inl rfl, .inl rfl, .inl rfl⟩⟩ rfl

theorem receivingCmd0_inv (ops : List HostOp) :
    (receivingWith .receivingCmd0 [0x40, 0, 0, 0, 0, 0x95] 6 ops).Inv :=
  inv_of rfl ⟨nofun, fun _ => ⟨show 1 ≤ 6 by decide, Nat.le_refl 6,
      show recvState (buffer [0x40, 0, 0, 0, 0, 0x95])[0] = some .receivingCmd0 by decide, rfl⟩, nofun,
    ⟨Nat.zero_le 4, (absurd rfl ·)⟩, ⟨Nat.zero_le 4, (absurd rfl ·)⟩, (absurd rfl ·), ⟨.inl rfl, .inl rfl, .inl rfl⟩⟩ rfl

theorem readyCmd0_inv (ops : List HostOp) : (readyWith [0x40, 0, 0, 0, 0, 0x95] ops).Inv :=
  inv_of rfl ⟨nofun, nofun, fun _ => ⟨rfl, show (buffer [0x40, 0, 0, 0, 0, 0x95])[0] ∈ Literals.opcodes by decide⟩,
    ⟨Nat.zero_le 4, (absurd rfl ·)⟩, ⟨Nat.zero_le 4, (absurd rfl ·)⟩, (absurd rfl ·), ⟨.inl rfl, .inl rfl, .inl rfl⟩⟩ rfl

theorem buffer_cmd8 : (buffer [0x48, 0x00, 0x00, 0x01, 0xAA, 0x87])[0] = 0x48 := by decide

theorem cmd8Served_inv {k : Fin 6} (le : k.val ≤ 4) (ops : List HostOp) : (cmd8Served k ops).Inv :=
  have opcode : (cmd8Served k ops).storedOpcode = 0x48 := buffer_cmd8
  inv_of rfl ⟨nofun, nofun, fun _ => ⟨rfl, opcode ▸ (by decide)⟩, ⟨le, fun _ => ⟨rfl, opcode⟩⟩,
    ⟨Nat.zero_le 4, (absurd rfl ·)⟩, (absurd rfl ·), ⟨.inr rfl, .inr rfl, .inl rfl⟩⟩ rfl

theorem buffer_cmd58 : (buffer [0x7A, 0x00, 0x00, 0x00, 0x00, 0xFF])[0] = 0x7A := by decide

theorem cmd58Served_inv {k : Fin 6} (le : k.val ≤ 4) (ops : List HostOp) : (cmd58Served k ops).Inv :=
  have opcode : (cmd58Served k ops).storedOpcode = 0x7A := buffer_cmd58
  inv_of rfl ⟨nofun, nofun, fun _ => ⟨rfl, opcode ▸ (by decide)⟩, ⟨Nat.zero_le 4, (absurd rfl ·)⟩,
    ⟨le, fun _ => ⟨rfl, opcode⟩⟩, (absurd rfl ·), ⟨.inl rfl, .inl rfl, .inr rfl⟩⟩ rfl

theorem buffer_cmd17 : (buffer [0x51, 0x00, 0x00, 0x00, 0x00, 0xFF])[0] = 0x51 ∧
    frameArgument (buffer [0x51, 0x00, 0x00, 0x00, 0x00, 0xFF])[1] (buffer [0x51, 0x00, 0x00, 0x00, 0x00, 0xFF])[2]
      (buffer [0x51, 0x00, 0x00, 0x00, 0x00, 0xFF])[3] (buffer [0x51, 0x00, 0x00, 0x00, 0x00, 0xFF])[4] = 0 := by decide

theorem blockServed_inv {k : Fin 513} (le : k.val ≤ 511) (ops : List HostOp) : (blockServed k ops).Inv := by
  have opcode : (blockServed k ops).storedOpcode = 0x51 := buffer_cmd17.1
  have argument : (blockServed k ops).storedArgument = 0 := buffer_cmd17.2
  have cursor : (blockServed k ops).blockReadCursor ≤ 511 := show (k.val : Int) ≤ 511 by omega
  refine inv_of rfl ⟨nofun, nofun, fun _ => ⟨rfl, opcode ▸ (by decide)⟩, ⟨Nat.zero_le 4, (absurd rfl ·)⟩,
    ⟨Nat.zero_le 4, (absurd rfl ·)⟩, fun _ => ⟨cursor, rfl, opcode, ?_, stagedBlock_zero [] 0, fun i => ?_⟩,
    ⟨.inl rfl, .inl rfl, .inl rfl⟩⟩ rfl
  · rw [argument]
    decide
  · rw [argument]
    have staged := stagedBlock_succ [] 0 i.val (Nat.succ_lt_succ i.isLt)
    simp only [blockServed, Nat.add_comm 1 i.val]
    exact staged

theorem witness_decoded_bytes : decode [0x51, 0xFF, 0xFF, 0xFF, 0xFF, 0x00, 0x40] = .ok (.cmd17 0xFFFFFFFF 0x00, [0x40]) := by
  decide

theorem witness_table_words : 0x40FFFFFFFFFF &&& 0xFF0000000000 = 0x400000000000 ∧
    0x480000000000 &&& 0xFF0000000000 = 0x480000000000 ∧ 0x500000000001 &&& 0xFF0000000000 = 0x500000000000 ∧
    0x51FFFFFFFFFF &&& 0xFF0000000000 = 0x510000000000 ∧ 0x690000000000 &&& 0xFF0000000000 = 0x690000000000 ∧
    0x778000000000 &&& 0xFF0000000000 = 0x770000000000 ∧ 0x7A00000000FF &&& 0xFF0000000000 = 0x7A0000000000 := by decide

theorem witness_step_runs_a_reply :
    (readyWith [0x40, 0, 0, 0, 0, 0x95] [.rxRead]).Next .rxRead [] ∧
      decode (readyWith [0x40, 0, 0, 0, 0, 0x95] [.rxRead]).storedFrame = .ok (.cmd0 0 0x95, []) :=
  ⟨⟨rfl, rfl, rfl⟩, by decide⟩

theorem witness_step_runs_the_filler :
    (idleWith [.txWrite 0xFF]).Next (.txWrite 0xFF) [] ∧ (idleWith [.txWrite 0xFF]).state = .idle ∧
      (cmd8Served 4 [.txWrite 0xFF]).Next (.txWrite 0xFF) [] ∧ (cmd8Served 4 [.txWrite 0xFF]).state = .ready ∧
      decode [0xFF] = .ok (.idle, []) :=
  ⟨⟨rfl, rfl, rfl⟩, rfl, ⟨rfl, rfl, rfl⟩, rfl, by decide⟩

theorem witness_block_never_acts_alone : (cmd8Served 3 []).fault = none ∧ (cmd8Served 3 []).pending = [] := ⟨rfl, rfl⟩

theorem witness_fatal_has_no_return :
    ({ idleWith [.rxRead] with fault := some ⟨.unknownCommand, .byte 0x00⟩ } : State).fault =
      some ⟨.unknownCommand, .byte 0x00⟩ := rfl

theorem witness_fatal_entry : (idleWith [.txWrite 0x00]).fault = none ∧
    (idleWith [.txWrite 0x00]).pending = [.txWrite 0x00] ∧ ∃ t, step (idleWith [.txWrite 0x00]) = .next t ∧
      t.fault = some ⟨.unknownCommand, .byte 0x00⟩ :=
  ⟨rfl, rfl, _, eq_next (by decide +kernel), by decide +kernel⟩

theorem witness_register_operation : (blockServed 511 [.rxRead]).Inv ∧ (blockServed 511 [.rxRead]).Next .rxRead [] ∧
    HostOp.rxRead.onRegisters = true :=
  ⟨blockServed_inv (by decide) _, ⟨rfl, rfl, rfl⟩, rfl⟩

theorem witness_fillers : (cmd8Served 4 [.txWrite 0xFF, .txWrite 0xFF, .rxRead]).fault = none ∧
    (cmd8Served 4 [.txWrite 0xFF, .txWrite 0xFF, .rxRead]).lifecycle = .running ∧
    (cmd8Served 4 [.txWrite 0xFF, .txWrite 0xFF, .rxRead]).state = .ready ∧
    (cmd8Served 4 [.txWrite 0xFF, .txWrite 0xFF, .rxRead]).pending =
      List.replicate 2 (.txWrite 0xFF) ++ [.rxRead] := ⟨rfl, rfl, rfl, rfl⟩

/-- The boundary lengths of a frame that still grows, for a filler and for any byte. -/
theorem witness_frame_grows :
    (receivingWith .receivingCmd0 [0x40] 1 [.txWrite 0xFF]).Next (.txWrite 0xFF) [] ∧
      (receivingWith .receivingCmd0 [0x40] 1 [.txWrite 0xFF]).state.isReceiving = true ∧
      (receivingWith .receivingCmd0 [0x40] 1 [.txWrite 0xFF]).commandLength.val = 1 ∧
      (receivingWith .receivingCmd58 [0x7A] 5 [.txWrite 0x40]).Next (.txWrite 0x40) [] ∧
      (receivingWith .receivingCmd58 [0x7A] 5 [.txWrite 0x40]).state.isReceiving = true ∧
      (receivingWith .receivingCmd58 [0x7A] 5 [.txWrite 0x40]).commandLength.val = 5 :=
  ⟨⟨rfl, rfl, rfl⟩, rfl, rfl, ⟨rfl, rfl, rfl⟩, rfl, rfl⟩

theorem witness_frame_is_full :
    (receivingWith .receivingCmd0 [0x40] 6 [.txWrite 0xFF]).Next (.txWrite 0xFF) [] ∧
      (receivingWith .receivingCmd0 [0x40] 6 [.txWrite 0xFF]).state.isReceiving = true ∧
      (receivingWith .receivingCmd0 [0x40] 6 [.txWrite 0xFF]).commandLength.val = 6 :=
  ⟨⟨rfl, rfl, rfl⟩, rfl, rfl⟩

theorem witness_opcode_starts : (idleWith [.txWrite 0x40]).Next (.txWrite 0x40) [] ∧
    (idleWith [.txWrite 0x40]).state = .idle ∧ (idleWith [.txWrite 0x40]).replyActive = false ∧
    (cmd8Served 1 [.txWrite 0x7A]).Next (.txWrite 0x7A) [] ∧ (cmd8Served 1 [.txWrite 0x7A]).state = .ready ∧
    (cmd8Served 1 [.txWrite 0x7A]).replyActive = true :=
  ⟨⟨rfl, rfl, rfl⟩, rfl, rfl, ⟨rfl, rfl, rfl⟩, rfl, rfl⟩

theorem witness_unknown_byte : (idleWith [.txWrite 0xFE]).Next (.txWrite 0xFE) [] ∧
    (idleWith [.txWrite 0xFE]).state = .idle ∧ (cmd8Served 1 [.txWrite 0x41]).Next (.txWrite 0x41) [] ∧
    (cmd8Served 1 [.txWrite 0x41]).state = .ready ∧
    (0xFE : Byte) ∉ ([0x40, 0x48, 0x50, 0x51, 0x69, 0x77, 0x7A] : List Byte) ∧
    (0x41 : Byte) ∉ ([0x40, 0x48, 0x50, 0x51, 0x69, 0x77, 0x7A] : List Byte) :=
  ⟨⟨rfl, rfl, rfl⟩, rfl, ⟨rfl, rfl, rfl⟩, rfl, by decide, by decide⟩

/-- A reply partly served, of each of the three commands, at its last cursor. -/
theorem witness_overlap : (cmd8Served 4 [.txWrite 0x40]).Inv ∧ (cmd8Served 4 [.txWrite 0x40]).Next (.txWrite 0x40) [] ∧
    (cmd58Served 4 [.txWrite 0x40]).Inv ∧ (cmd58Served 4 [.txWrite 0x40]).Next (.txWrite 0x40) [] ∧
    (blockServed 511 [.txWrite 0x40]).Inv ∧ (blockServed 511 [.txWrite 0x40]).Next (.txWrite 0x40) [] ∧
    (0x40 : Byte) ∈ Literals.opcodes :=
  ⟨cmd8Served_inv (by decide) _, ⟨rfl, rfl, rfl⟩, cmd58Served_inv (by decide) _, ⟨rfl, rfl, rfl⟩,
    blockServed_inv (by decide) _, ⟨rfl, rfl, rfl⟩, by decide⟩

theorem witness_causes : (idleWith [.txWrite 0x00]).Inv ∧ ∃ t, step (idleWith [.txWrite 0x00]) = .next t ∧
    t.fault = some ⟨.unknownCommand, .byte 0x00⟩ :=
  ⟨idleWith_inv _, _, eq_next (by decide +kernel), by decide +kernel⟩

theorem witness_write_path : (idleWith [.txWrite 0x51]).Next (.txWrite 0x51) [] ∧
    ∃ t, step (idleWith [.txWrite 0x51]) = .next t :=
  ⟨⟨rfl, rfl, rfl⟩, _, eq_next (by decide +kernel)⟩

theorem witness_read_outside_ready : (idleWith [.rxRead]).Next .rxRead [] ∧ (idleWith [.rxRead]).state ≠ .ready ∧
    (receivingWith .receivingCmd0 [0x40] 6 [.rxRead]).Next .rxRead [] ∧
    (receivingWith .receivingCmd0 [0x40] 6 [.rxRead]).state ≠ .ready :=
  ⟨⟨rfl, rfl, rfl⟩, by decide, ⟨rfl, rfl, rfl⟩, by decide⟩

theorem witness_one_byte_reply : (readyWith [0x40] [.rxRead]).state = .ready ∧
    State.Next { (readyWith [0x40] [.rxRead]).after [.rxRead] (.byte 0x01) with state := .idle, commandLength := 0 }
      .rxRead [] := ⟨rfl, rfl, rfl, rfl⟩

theorem witness_five_byte_reply : (cmd8Served 0 []).state = .ready ∧ (cmd8Served 0 []).cmd8ReplyIndex.val = 0 ∧
    (cmd8Served 4 []).cmd8ReplyIndex.val = 4 ∧ (cmd58Served 0 []).state = .ready ∧
    (cmd58Served 0 []).cmd58ReplyIndex.val = 0 ∧ (cmd58Served 4 []).cmd58ReplyIndex.val = 4 :=
  ⟨rfl, rfl, rfl, rfl, rfl, rfl⟩

/-- Each cursor at its last place, read directly and through a load. -/
theorem witness_last_cursor : (cmd8Served 4 [.rxRead]).Inv ∧ (cmd58Served 4 [.rxRead]).Inv ∧
    (blockServed 511 [.rxRead]).Inv ∧ (blockServed 511 [.load (Config.base + Config.rxOffset) 4]).Inv :=
  ⟨cmd8Served_inv (by decide) _, cmd58Served_inv (by decide) _, blockServed_inv (by decide) _,
    blockServed_inv (by decide) _⟩

theorem witness_block_read : (readyWith [0x51] []).state = .ready ∧ (readyWith [0x51] []).blockReadIndex = none ∧
    (0x1FFF : Argument).toNat ≤ 8191 ∧ (blockServed 0 []).blockReadIndex = some (0 : Fin 512).castSucc ∧
    (blockServed 511 []).blockReadIndex = some (511 : Fin 512).castSucc := ⟨rfl, rfl, by decide, rfl, rfl⟩

/-- Both sides of the end of the store, and the first and last cursor. -/
theorem witness_block_read_step : lastBlock.Next .rxRead [] ∧ lastBlock.state = .ready ∧ lastBlock.storedOpcode = 0x51 ∧
    lastBlock.blockReadIndex = none ∧ lastBlock.storedArgument.toNat = 8191 ∧ 8191 * 512 + 512 ≤ 4194304 ∧
    (readyWith [0x51, 0x00, 0x00, 0x20, 0x00, 0xFF] [.rxRead]).Next .rxRead [] ∧
    (readyWith [0x51, 0x00, 0x00, 0x20, 0x00, 0xFF] [.rxRead]).storedArgument.toNat = 8192 ∧
    4194304 < 8192 * 512 + 512 ∧ (blockServed 0 [.rxRead]).Next .rxRead [] ∧ (blockServed 511 [.rxRead]).Next .rxRead [] ∧
    (blockServed 511 [.rxRead]).storedOpcode = 0x51 :=
  ⟨⟨rfl, rfl, rfl⟩, rfl, by decide, rfl, by decide, by decide, ⟨rfl, rfl, rfl⟩, by decide, by decide, ⟨rfl, rfl, rfl⟩,
    ⟨rfl, rfl, rfl⟩, by decide⟩

theorem witness_served_bytes : (blockServed 0 [.rxRead]).Inv ∧ (blockServed 0 [.rxRead]).Next .rxRead [] ∧
    (blockServed 511 [.rxRead, .rxRead]).Inv ∧ (blockServed 511 [.rxRead, .rxRead]).Next .rxRead [.rxRead] ∧
    (blockServed 511 [.rxRead, .rxRead]).state = .ready ∧ (blockServed 511 [.rxRead, .rxRead]).storedOpcode = 0x51 ∧
    (blockServed 511 [.txWrite 0xFF]).Next (.txWrite 0xFF) [] ∧ (blockServed 0 [.otherRead 9]).Next (.otherRead 9) [] ∧
    (blockServed 0 [.otherWrite 9 0x40]).Next (.otherWrite 9 0x40) [] :=
  ⟨blockServed_inv (by decide) _, ⟨rfl, rfl, rfl⟩, blockServed_inv (by decide) _, ⟨rfl, rfl, rfl⟩, rfl, by decide,
    ⟨rfl, rfl, rfl⟩, ⟨rfl, rfl, rfl⟩, ⟨rfl, rfl, rfl⟩⟩

/-- A load at the incoming-data register answers as the read it is. -/
theorem load_next (s : State) {bytes : Nat} {u : State} (pos : 1 ≤ bytes)
    (next : s.Next (.load (Config.base + Config.rxOffset) bytes) [])
    (read : rxRead (s.withPending []) = .next u) : step s = .next (u.widened (8 * bytes)) := by
  rw [step_of_next next, perform_load (s := s.withPending []) next.2.1 pos, loadAccess_rx, read]
  rfl

theorem witness_latency : (∃ t, step lastBlock = .next t) ∧
    (∃ t, step { lastBlock with pending := [.load (Config.base + Config.rxOffset) 2] } = .next t) ∧
    ∃ t, step (blockServed 0 [.rxRead]) = .next t :=
  ⟨⟨_, eq_next (by decide +kernel)⟩, ⟨_, load_next { lastBlock with pending := _ } (by decide) ⟨rfl, rfl, rfl⟩ (eq_next (by decide +kernel))⟩,
    ⟨_, eq_next (by decide +kernel)⟩⟩

theorem witness_reserved : (cmd8Served 2 [.otherRead 9]).Next (.otherRead 9) [] ∧
    (receivingWith .receivingCmd8 [0x48, 0x00, 0x00] 3 [.otherWrite 9 0x12]).Next (.otherWrite 9 0x12) [] :=
  ⟨⟨rfl, rfl, rfl⟩, ⟨rfl, rfl, rfl⟩⟩

/-- A 32-bit store at the outgoing-data register (T64), a store at the other register (T62), one just past the window. -/
theorem witness_store :
    (idleWith [.store (Config.base + Config.txOffset) 4 0x12345640]).Next
        (.store (Config.base + Config.txOffset) 4 0x12345640) [] ∧ 0x12345640 < 256 ^ 4 ∧
      (idleWith [.store (Config.base + Config.rxOffset) 1 0x40]).Next (.store (Config.base + Config.rxOffset) 1 0x40) [] ∧
      Config.base + Config.rxOffset < Config.base + Config.windowBytes ∧
      Config.base + Config.rxOffset ≠ Config.base + Config.txOffset ∧
      (idleWith [.store (Config.base + Config.windowBytes) 1 0xFF]).Next
        (.store (Config.base + Config.windowBytes) 1 0xFF) [] ∧
      (idleWith [.store (Config.base - 1) 1 0xFF]).Next (.store (Config.base - 1) 1 0xFF) [] ∧
      (Config.base = 0 ∨ Config.base - 1 < Config.base) :=
  ⟨⟨rfl, rfl, rfl⟩, by decide, ⟨rfl, rfl, rfl⟩, Nat.add_lt_add_left Config.rxOffset_lt_windowBytes _,
    fun h => Config.rxOffset_ne_txOffset (Nat.add_left_cancel h), ⟨rfl, rfl, rfl⟩, ⟨rfl, rfl, rfl⟩, by omega⟩

/-- A load at the incoming-data register that gets a byte and one that gets a fatal, a load at the other register
(T62), one just past the window. -/
theorem witness_load :
    (idleWith [.load (Config.base + Config.rxOffset) 2]).Next (.load (Config.base + Config.rxOffset) 2) [] ∧
      (∃ u, step ((idleWith [.load (Config.base + Config.rxOffset) 2]).withPending [.rxRead]) = .next u ∧
        u.delivered = [.byte 0xFF]) ∧
      (∃ u, step (readyWith [0x51, 0x00, 0x00, 0x20, 0x00, 0xFF] [.rxRead]) = .next u ∧
        u.delivered = [.fatal ⟨.addressRange, .blockNumber 8192⟩]) ∧
      (idleWith [.load (Config.base + Config.txOffset) 1]).Next (.load (Config.base + Config.txOffset) 1) [] ∧
      Config.base + Config.txOffset < Config.base + Config.windowBytes ∧
      Config.base + Config.txOffset ≠ Config.base + Config.rxOffset ∧
      (idleWith [.load (Config.base + Config.windowBytes) 1]).Next (.load (Config.base + Config.windowBytes) 1) [] ∧
      (idleWith [.load (Config.base - 1) 1]).Next (.load (Config.base - 1) 1) [] ∧
      (Config.base = 0 ∨ Config.base - 1 < Config.base) :=
  ⟨⟨rfl, rfl, rfl⟩, ⟨_, eq_next (by decide +kernel), by decide +kernel⟩, ⟨_, eq_next (by decide +kernel), by decide +kernel⟩,
    ⟨rfl, rfl, rfl⟩, Nat.add_lt_add_left Config.txOffset_lt_windowBytes _,
    fun h => Config.rxOffset_ne_txOffset (Nat.add_left_cancel h).symm, ⟨rfl, rfl, rfl⟩, ⟨rfl, rfl, rfl⟩, by omega⟩

/-- The first `n` bytes of `f`, as an image. -/
def imageOf (n : Nat) (f : Nat → Byte) : List Byte := List.ofFn fun i : Fin n => f i.val

theorem imageOf_length (n : Nat) (f : Nat → Byte) : (imageOf n f).length = n := List.length_ofFn

theorem imageOf_getElem {n : Nat} (f : Nat → Byte) {a : Nat} (h : a < (imageOf n f).length) : (imageOf n f)[a] = f a := by
  simp only [imageOf, List.getElem_ofFn]

/-- A constructed device with its reset operation waiting. -/
def constructedWith (image : Option (List Byte)) : State :=
  { idleWith [.deviceReset image] with lifecycle := .constructed }

theorem witness_device_reset : (constructedWith none).fault = none ∧ (constructedWith none).lifecycle = .constructed ∧
    (constructedWith none).backingStore.wf = true ∧ (constructedWith none).pending = [.deviceReset none] ∧
    (constructedWith (some (imageOf 4194304 Config.image))).pending = [.deviceReset (some (imageOf 4194304 Config.image))] ∧
    (imageOf 4194304 Config.image).length = 4194304 ∧ ([] : List Byte).length ≠ 4194304 :=
  ⟨rfl, rfl, rfl, rfl, rfl, imageOf_length _ _, by decide⟩

theorem witness_construct : (imageOf 4194304 Config.image).length = 4194304 ∧
    (∀ (a : Nat) (h : a < (imageOf 4194304 Config.image).length), (imageOf 4194304 Config.image)[a] = Config.image a) ∧
    ({ idleWith [.construct, .deviceReset (some (imageOf 4194304 Config.image))] with lifecycle := .absent } : State).lifecycle =
      .absent :=
  ⟨imageOf_length _ _, fun _ h => imageOf_getElem _ h, rfl⟩

theorem step_deviceReset {image : List Byte} (size : image.length = 4194304) :
    step (constructedWith (some image)) =
      .next ((((constructedWith (some image)).withPending []).accept image).deliver .done) := by
  show deviceReset (some image) _ = _
  unfold deviceReset
  exact if_pos size

/-- A device at a place of its life, with operations waiting. -/
def withLife (place : Lifecycle) (ops : List HostOp) : State := { idleWith ops with lifecycle := place }

/-- A second `Construct`, in service and on a constructed device; a `DeviceReset` in service and on an absent device; a
read, a store and a load before service; each of the two moves of `lifecycle`. -/
theorem witness_reset_out_of_place :
    (idleWith [.construct]).fault = none ∧ (idleWith [.construct]).pending = [.construct] ∧
    (idleWith [.construct]).lifecycle ≠ .absent ∧ (withLife .constructed [.construct]).lifecycle ≠ .absent ∧
    (idleWith [.deviceReset none]).lifecycle ≠ .constructed ∧
    (withLife .absent [.deviceReset none]).pending = [.deviceReset none] ∧
    (withLife .absent [.deviceReset none]).lifecycle ≠ .constructed ∧
    (withLife .constructed [.rxRead]).lifecycle ≠ .running ∧ HostOp.rxRead.onRegisters = true ∧
    (withLife .absent [.store 0 1 0xFF]).lifecycle ≠ .running ∧ 0xFF < 256 ^ 1 ∧
    (withLife .constructed [.load 0 1]).lifecycle ≠ .running ∧
    (∃ t, step (withLife .absent [.construct]) = .next t ∧ t.lifecycle = .constructed) ∧
    ∃ t, step (constructedWith (some (imageOf 4194304 Config.image))) = .next t ∧ t.lifecycle = .running :=
  ⟨rfl, rfl, by decide, by decide, by decide, rfl, by decide, by decide, rfl, by decide, by decide, by decide,
    ⟨_, eq_next (by decide +kernel), by decide +kernel⟩, ⟨_, step_deviceReset (imageOf_length _ _), rfl⟩⟩

theorem byteAt_imageOf (f : Nat → Byte) {a : Nat} (lt : a < 4194304) :
    Memory.byteAt (Memory.load [] 0 (imageOf 4194304 f)) a = f a := by
  have read := Memory.byteAt_load (m := []) (a := 0) (bytes := imageOf 4194304 f) rfl
    (by rw [imageOf_length]; exact Nat.le_refl _) a (by rw [imageOf_length]; exact lt)
  rw [Nat.zero_add] at read
  rw [read, imageOf_getElem]

/-- The store after the reset and before it. -/
theorem stores (image : List Byte) :
    ((((constructedWith (some image)).withPending []).accept image).deliver .done).backingStore = Memory.load [] 0 image ∧
      (constructedWith (some image)).backingStore = [] := ⟨rfl, rfl⟩

theorem changed {f : Nat → Byte} {a : Nat} (lt : a < 4194304) (ne : f a ≠ Config.image a) :
    ∃ t, step (constructedWith (some (imageOf 4194304 f))) = .next t ∧
      t.backingStore.byteAt a ≠ (constructedWith (some (imageOf 4194304 f))).backingStore.byteAt a := by
  refine ⟨_, step_deviceReset (imageOf_length _ _), ?_⟩
  rw [(stores _).1, (stores _).2, byteAt_imageOf f lt]
  exact ne

theorem add_one_ne (b : Byte) : b + 1 ≠ b := by bv_omega

/-- An image that differs from `IMAGE` in every byte, read at the last address. -/
theorem witness_store_written :
    ∃ t, step (constructedWith (some (imageOf 4194304 fun a => Config.image a + 1))) = .next t ∧
      t.backingStore.byteAt 4194303 ≠
        (constructedWith (some (imageOf 4194304 fun a => Config.image a + 1))).backingStore.byteAt 4194303 :=
  changed (f := fun a => Config.image a + 1) (by decide) (add_one_ne _)

theorem witness_instruction_frame : (∃ t, exec (.cmd17 8191 0xFF) lastBlock = .next t) ∧
    (∃ t, exec (.cmd17 8192 0xFF) lastBlock = .next t) ∧ ∃ t, exec (.cmd58 0 0xFF) (cmd58Served 4 []) = .next t :=
  ⟨⟨_, eq_next (by decide +kernel)⟩, ⟨_, eq_next (by decide +kernel)⟩, ⟨_, eq_next (by decide +kernel)⟩⟩

/-- Into `Ready` and out of a `Receiving*` state; into `Idle`; a fatal. -/
theorem witness_ways :
    ((receivingWith .receivingCmd0 [0x40, 0, 0, 0, 0, 0x95] 6 [.rxRead]).Inv ∧
      ∃ t, step (receivingWith .receivingCmd0 [0x40, 0, 0, 0, 0, 0x95] 6 [.rxRead]) = .next t ∧ t.state = .ready) ∧
    ((readyWith [0x40, 0, 0, 0, 0, 0x95] [.rxRead]).Inv ∧
      ∃ t, step (readyWith [0x40, 0, 0, 0, 0, 0x95] [.rxRead]) = .next t ∧ t.state = .idle) ∧
    ((cmd8Served 1 [.txWrite 0x40]).Inv ∧ ∃ t, step (cmd8Served 1 [.txWrite 0x40]) = .next t ∧ t.fault ≠ none) :=
  ⟨⟨receivingCmd0_inv _, _, eq_next (by decide +kernel), by decide +kernel⟩,
    ⟨readyCmd0_inv _, _, eq_next (by decide +kernel), by decide +kernel⟩,
    ⟨cmd8Served_inv (by decide) _, _, eq_next (by decide +kernel), by decide +kernel⟩⟩

theorem witness_quiescent : (idleWith [.rxRead]).Inv ∧ (idleWith [.rxRead]).Finished := ⟨idleWith_inv _, rfl, rfl, rfl⟩

theorem witness_conduct : (cmd8Served 1 [.txWrite 0x40]).Inv ∧ (cmd8Served 1 [.txWrite 0x40]).Next (.txWrite 0x40) [] ∧
    Permitted (cmd8Served 1 [.txWrite 0x40]) (.txWrite 0x40) = false ∧ (cmd8Served 1 [.rxRead]).Inv ∧
    (cmd8Served 1 [.rxRead]).Next .rxRead [] ∧ Permitted (cmd8Served 1 [.rxRead]) .rxRead = true :=
  ⟨cmd8Served_inv (by decide) _, ⟨rfl, rfl, rfl⟩, by decide, cmd8Served_inv (by decide) _, ⟨rfl, rfl, rfl⟩, by decide⟩

theorem witness_invariant_step : (blockServed 510 [.rxRead]).Inv ∧ ∃ t, step (blockServed 510 [.rxRead]) = .next t :=
  ⟨blockServed_inv (by decide) _, _, eq_next (by decide +kernel)⟩

theorem witness_dead_bytes : (idleWith [.txWrite 0x40]).Inv ∧
    State.Inv { idleWith [.txWrite 0x40] with commandBuffer := buffer [0x51, 0x07] } ∧
    SameLive (idleWith [.txWrite 0x40]) { idleWith [.txWrite 0x40] with commandBuffer := buffer [0x51, 0x07] } :=
  ⟨idleWith_inv _, inv_of rfl ⟨fun _ => ⟨rfl, rfl⟩, nofun, nofun, ⟨Nat.zero_le 4, (absurd rfl ·)⟩,
      ⟨Nat.zero_le 4, (absurd rfl ·)⟩, (absurd rfl ·), ⟨.inl rfl, .inl rfl, .inl rfl⟩⟩ rfl,
    rfl, rfl, fun _ h => absurd h (Nat.not_lt_zero _), rfl, rfl, rfl, fun _ => rfl, rfl, rfl, rfl, rfl, rfl, rfl⟩

/-- CMD0 and its one-byte reply, and a CMD17 of the last block. -/
theorem witness_command : Instr.cmd0 0 0x95 ≠ .idle ∧ (8191 : Argument).toNat ≤ 8191 ∧
    (idleWith ((encode (.cmd0 0 0x95)).map HostOp.txWrite ++ List.replicate 2 HostOp.rxRead)).Inv ∧
    (idleWith ((encode (.cmd0 0 0x95)).map HostOp.txWrite ++ List.replicate 2 HostOp.rxRead)).Finished ∧
    (replyOf [] (.cmd0 0 0x95)).length + 1 = 2 ∧
    (idleWith ((encode (.cmd17 8191 0xFF)).map HostOp.txWrite ++ List.replicate 514 HostOp.rxRead)).Inv ∧
    (idleWith ((encode (.cmd17 8191 0xFF)).map HostOp.txWrite ++ List.replicate 514 HostOp.rxRead)).Finished ∧
    (replyOf [] (.cmd17 8191 0xFF)).length + 1 = 514 :=
  ⟨nofun, by decide, idleWith_inv _, ⟨rfl, rfl, rfl⟩, rfl, idleWith_inv _, ⟨rfl, rfl, rfl⟩,
    by simp [replyOf, Memory.block]⟩

end Sys2Proof.Tests
end

section
/-! PROOF. The frame of the backing store (20_memory.md R50): no instruction and no operation on the window changes it,
so of all operations only `DeviceReset` can, and it is performed only before service. -/

namespace Sys2Proof.Machine

@[simp] theorem State.faulted_backingStore (s : State) (c : FatalCause) (d : FatalInfo) :
    (s.faulted c d).backingStore = s.backingStore := rfl

/-- No instruction has a write path to the store: CMD17 only copies out of it. -/
theorem ExecStep.backingStore_eq {i : Instr} {s t : State} (run : ExecStep i s t) :
    t.backingStore = s.backingStore := by
  cases run <;> simp

/-- A write grows the command buffer and a read in `Ready` runs an instruction: neither reaches the store. -/
theorem RegisterStep.backingStore_eq {op : HostOp} {s t : State} (run : RegisterStep op s t) :
    t.backingStore = s.backingStore := by
  cases run with
  | dispatch _ _ _ _ _ run => exact run.backingStore_eq
  | _ => simp

/-- The one writer of the store is a `DeviceReset`, accepted only between `Construct` and service. -/
theorem PerformStep.backingStore_eq_or_deviceReset {op : HostOp} {s t : State} (run : PerformStep op s t) :
    t.backingStore = s.backingStore ∨ s.lifecycle = .constructed ∧ ∃ image, op = .deviceReset image := by
  cases run with
  | register _ run => exact .inl run.backingStore_eq
  | store _ _ _ _ run => exact .inl run.backingStore_eq
  | load _ _ _ run => exact .inl (by simp [run.backingStore_eq])
  | construct => exact .inl (by simp)
  | loaded constructed => exact .inr ⟨constructed, _, rfl⟩
  | badSize => exact .inl (by simp)
  | missing => exact .inl (by simp)

/-- Settles O35: the step performs some operation, and each but `DeviceReset` keeps the whole store. -/
theorem onlyDeviceResetWritesTheStore : Obligations.OnlyDeviceResetWritesTheStore := by
  intro s t a stepped changed
  obtain ⟨-, ⟨-, rfl⟩ | ⟨op, rest, waiting, run⟩⟩ := step_next stepped
  · exact absurd rfl changed
  · obtain same | ⟨constructed, image, rfl⟩ := run.backingStore_eq_or_deviceReset
    · exact absurd (by rw [same, State.withPending_backingStore]) changed
    · exact ⟨constructed, image, rest, waiting⟩

end Sys2Proof.Machine
end

section
/-! PROOF. The worked encodings (30_encoding.md R72): a table word is decoded as the bytes it numbers, so each encoding
is one decoded frame and one numbering. -/

namespace Sys2Proof

/-- The decoder reads a table word as its bytes, the first of them most significant (R60). -/
theorem decodeTableWord_of_decode {nbits w : Nat} {bytes after : List Byte} {i : Instr}
    (numbered : tableBytes nbits w = bytes) (decoded : decode bytes = .ok (i, after)) :
    decodeTableWord nbits w = some i := by
  simp [decodeTableWord, numbered, decoded]

/-- The two forms of a worked encoding, the frame's bytes and its 48-bit word, decode alike. -/
theorem decode_and_decodeTableWord {w : Nat} {bytes : List Byte} {i : Instr}
    (numbered : tableBytes 48 w = bytes) (decoded : decode bytes = .ok (i, [])) :
    decode bytes = .ok (i, []) ∧ decodeTableWord 48 w = some i :=
  ⟨decoded, decodeTableWord_of_decode numbered decoded⟩

/-- Settles O4: each word numbers the bytes quoted with it, and those bytes are a frame of the command named. -/
theorem workedEncodingsDecode : Obligations.WorkedEncodingsDecode := by
  refine ⟨?cmd0, ?cmd8, ?cmd58, ?cmd17⟩
  case cmd0 => exact decode_and_decodeTableWord (by decide) (by decide)
  case cmd8 => exact decode_and_decodeTableWord (by decide) (by decide)
  case cmd58 => exact decode_and_decodeTableWord (by decide) (by decide)
  case cmd17 => exact decode_and_decodeTableWord (by decide) (by decide)

end Sys2Proof
end

section
/-! PROOF. The framing of the bytes written (40_command_framing.md R80 to R92): one step lemma per kind of byte, each
the law of `txWrite` for that case carried to `step`, and the statements read off from them. -/

namespace Sys2Proof.Machine

open Literals

section
variable {s : State} {rest : List HostOp} {v : Byte}

/-- A filler outside a frame is taken from the queue and acknowledged (R81). -/
theorem step_filler (next : s.Next (.txWrite filler) rest) (open_ : s.state.isReceiving = false) :
    step s = .next (s.after rest .done) :=
  (step_register next rfl).trans (txWrite_filler (s := s.withPending rest) open_)

/-- An opcode outside a frame, no reply partly served, opens its frame (R82 to R88). -/
theorem step_begin {c : CardState} (next : s.Next (.txWrite v) rest) (open_ : s.state.isReceiving = false)
    (recv : recvState v = some c) (quiet : s.replyActive = false) :
    step s = .next ((s.beginFrame v c).after rest .done) :=
  (step_register next rfl).trans (txWrite_begin (s := s.withPending rest) open_ recv quiet)

/-- An opcode outside a frame, a reply partly served, is fatal (D9). -/
theorem step_overlap (next : s.Next (.txWrite v) rest) (open_ : s.state.isReceiving = false) (mem : v ∈ opcodes)
    (active : s.replyActive = true) : step s = .next (s.afterFatal rest ⟨.replyOverlap, .byte v⟩) :=
  (step_register next rfl).trans (txWrite_overlap (s := s.withPending rest) open_ mem active)

/-- Any other byte outside a frame is fatal (R89). -/
theorem step_unknown (next : s.Next (.txWrite v) rest) (open_ : s.state.isReceiving = false) (ne : v ≠ filler)
    (mem : v ∉ opcodes) : step s = .next (s.afterFatal rest ⟨.unknownCommand, .byte v⟩) :=
  (step_register next rfl).trans (txWrite_unknown (s := s.withPending rest) open_ ne mem)

/-- Whatever the byte, an open frame of fewer than six bytes takes it (R92). -/
theorem step_append (next : s.Next (.txWrite v) rest) (recv : s.state.isReceiving = true)
    (lt : s.commandLength.val < 6) : step s = .next ((s.appendByte v (by omega)).after rest .done) :=
  (step_register next rfl).trans (txWrite_append (s := s.withPending rest) recv lt)

/-- The appended byte stands at the old length, and every other byte of the buffer is as before. -/
theorem State.appendByte_getElem (room : s.commandLength.val + 1 < 32) (k : Fin 32) :
    (s.appendByte v room).commandBuffer[k] = if k = s.commandLength then v else s.commandBuffer[k] := by
  simp [Vector.getElem_set, Fin.ext_iff, eq_comm]

/-- The table of opcodes (30_encoding.md R62) is that of `recvState`, row by row. -/
theorem recvState_of_row : ∀ row ∈ ([(0x40, .receivingCmd0), (0x48, .receivingCmd8), (0x50, .receivingCmd16),
    (0x51, .receivingCmd17), (0x69, .receivingAcmd41), (0x77, .receivingCmd55), (0x7A, .receivingCmd58)] :
      List (Byte × CardState)), recvState row.1 = some row.2 := by decide

theorem runFor_succ {t : State} (k : Nat) (stepped : step s = .next t) : runFor (k + 1) s = runFor k t := by
  simp only [runFor, stepped]

/-- Fillers outside a frame only pass from the queue to the results: each leaves a state of the same kind. -/
theorem runFor_fillers (k : Nat) (healthy : s.fault = none) (running : s.lifecycle = .running)
    (open_ : s.state.isReceiving = false) (waiting : s.pending = List.replicate k (.txWrite filler) ++ rest) :
    runFor k s = .next { s with pending := rest, delivered := List.replicate k .done ++ s.delivered } := by
  induction k generalizing s with
  | zero => subst waiting; rfl
  | succ k ih =>
    have next : s.Next (.txWrite filler) (List.replicate k (.txWrite filler) ++ rest) := ⟨healthy, running, waiting⟩
    have others := ih (s := s.after (List.replicate k (.txWrite filler) ++ rest) .done) healthy running open_ rfl
    rw [runFor_succ k (step_filler next open_), others, List.replicate_succ', List.append_assoc]
    rfl

end

/-- Settles O12: outside a frame the queue of fillers is run by induction on its length, and in a frame a filler is
appended as any byte is. -/
theorem fillerChangesNothing : Obligations.FillerChangesNothing := by
  refine ⟨fun _ => rfl, ?outside, ?inside⟩
  case outside =>
    intro k s rest healthy running place waiting
    exact runFor_fillers k healthy running ((isReceiving_eq_false_iff _).2 place) waiting
  case inside =>
    intro s rest next recv le
    have stored := State.appendByte_getElem (s := s) (v := 0xFF) (by omega) s.commandLength
    exact ⟨_, step_append next recv (by omega), rfl, rfl, stored.trans (if_pos rfl)⟩

/-- Settles O13: the table of opcodes is that of `recvState`, and the two clauses are the opcode laws of `txWrite`. -/
theorem opcodeStartsItsFrame : Obligations.OpcodeStartsItsFrame := by
  intro s rest v c listed next place
  have recv : recvState v = some c := recvState_of_row _ listed
  have open_ := (isReceiving_eq_false_iff _).2 place
  exact ⟨step_begin next open_ recv, step_overlap next open_ (recvState_mem recv)⟩

/-- Settles O16: the frame is open and short of its sixth byte, so the byte is appended. -/
theorem frameByteIsAppended : Obligations.FrameByteIsAppended := by
  intro s rest v next recv _ le
  have stored := State.appendByte_getElem (s := s) (v := v) (by omega)
  exact ⟨_, step_append next recv (by omega), rfl, stored, rfl⟩

/-- Settles O14: outside a frame, neither the filler nor a member of the table of opcodes. -/
theorem unknownByteIsFatal : Obligations.UnknownByteIsFatal := by
  intro s rest v next place ne unlisted
  exact step_unknown next ((isReceiving_eq_false_iff _).2 place) ne unlisted

end Sys2Proof.Machine
end

section
/-! PROOF. The one-byte replies (41_reply_dispatch.md R114 to R117): each of the four commands is one return of its byte
from a block reset to `Idle`, and a read of such a block is a read outside `Ready` with no frame complete. -/

namespace Sys2Proof.Machine

open Literals

/-- A byte returned by a read that resets the block changes the framing state and the length, and adds its result. -/
theorem returnByte_resetToIdle (b : Byte) (s : State) :
    returnByte b s.resetToIdle = .next { s.after s.pending (.byte b) with state := .idle, commandLength := 0 } := rfl

/-- A read outside `Ready`, fewer than six bytes there, is answered with the filler and changes no field (R111). -/
theorem step_rxRead_wait {s : State} {rest : List HostOp} (next : s.Next .rxRead rest) (ne : s.state ≠ .ready)
    (lt : s.commandLength.val < 6) : step s = .next (s.after rest (.byte filler)) :=
  (step_register next rfl).trans (rxRead_wait (s := s.withPending rest) ne lt)

/-- Settles O21: whatever its argument and trailer, a one-byte command returns its byte from the reset block; the read
after it finds the block in `Idle` with length 0. -/
theorem oneByteRepliesAreServedInOneRead : Obligations.OneByteRepliesAreServedInOneRead := by
  intro s _ _ _
  refine ⟨?cmd0, ?cmd16, ?cmd55, ?acmd41, ?after⟩
  case cmd0 => exact returnByte_resetToIdle cmd0Reply s
  case cmd16 => exact returnByte_resetToIdle cmd16Reply s
  case cmd55 => exact returnByte_resetToIdle cmd55Reply s
  case acmd41 => exact returnByte_resetToIdle acmd41Reply s
  case after =>
    rintro b t rest rfl next
    exact step_rxRead_wait next (by simp) (by simp)

end Sys2Proof.Machine
end

section
/-! PROOF. The block read (42_block_read.md R140 to R147) as a step of the machine: a read in `Ready` with a stored
CMD17 runs the engine on the stored argument, and the engine's law for each place of the cursor is carried to `step`. -/

namespace Sys2Proof.Machine

open Literals

/-- A frame whose first byte is `0x51` is a CMD17, whatever its argument and trailer (R62). -/
theorem frameInstr_cmd17 (arg : Argument) (trailer : Byte) :
    frameInstr opCmd17 arg trailer = some (.cmd17 arg trailer) := rfl

/-- The stored argument is the big-endian number of bytes 1 to 4 of the buffer (R64, R141). -/
theorem State.storedArgument_toNat (s : State) :
    s.storedArgument.toNat = s.commandBuffer[1].toNat * 16777216 + s.commandBuffer[2].toNat * 65536 +
      s.commandBuffer[3].toNat * 256 + s.commandBuffer[4].toNat := frameArgument_toNat _ _ _ _

/-- The staged copy of block `n` is indexed as R143 indexes it, `staging[1 + i]`. -/
theorem stagedBlock_one_add (m : Memory) (n : Nat) (i : Fin 512) :
    (stagedBlock m n)[1 + i.val]'(Nat.add_comm 1 i.val ▸ Nat.succ_lt_succ i.isLt) = m.byteAt (n * 512 + i.val) := by
  simp only [Nat.add_comm 1 i.val]
  exact stagedBlock_succ m n i.val _

/-- A later read serves the byte after the cursor and takes the cursor there; with the last byte the cursor goes to rest
and the block to `Idle` (R146, R147). -/
theorem execCmd17_serve {s : State} {k : Fin 512} (arg : Argument) (trailer : Byte) (ready : s.state = .ready)
    (at_ : s.blockReadIndex = some k.castSucc) :
    execCmd17 arg trailer s = .next { s with
      delivered := .byte (s.staging[1 + k.val]'(Nat.add_comm 1 k.val ▸ Nat.succ_lt_succ k.isLt)) :: s.delivered
      blockReadIndex := if k.val = 511 then none else some k.succ
      state := if k.val = 511 then .idle else .ready
      commandLength := if k.val = 511 then 0 else s.commandLength } := by
  by_cases last : k.val = 511
  · rw [execCmd17_last at_ (show k.val + 1 = 512 by omega)]
    simp only [last, if_true]
    rfl
  · rw [execCmd17_mid at_ (show k.val + 1 < 512 by omega)]
    simp only [last, if_false, Nat.add_comm 1 k.val, ← ready]
    rfl

/-- A read in `Ready` with a stored CMD17 is a step of the engine on the stored argument (R112, R140). -/
theorem step_rxRead_cmd17 {s : State} {rest : List HostOp} (next : s.Next .rxRead rest) (ready : s.state = .ready)
    (stored : s.storedOpcode = opCmd17) :
    step s = execCmd17 s.storedArgument s.storedTrailer (s.withPending rest) := by
  have decoded : frameInstr s.storedOpcode s.storedArgument s.storedTrailer =
      some (.cmd17 s.storedArgument s.storedTrailer) := by rw [stored, frameInstr_cmd17]
  exact (step_register next rfl).trans (rxRead_dispatch (s := s.withPending rest) ready decoded)

/-- Settles O25: the engine runs on the stored argument, which is the number `n`; the range check of R142 splits its
first read, and its later reads follow the cursor. -/
theorem blockReadStepOfTheMachine : Obligations.BlockReadStepOfTheMachine := by
  intro s rest n next ready stored number
  rw [← s.storedArgument_toNat] at number
  subst number
  rw [step_rxRead_cmd17 next ready stored]
  refine ⟨?outOfRange, ?first, ?later⟩
  case outOfRange =>
    intro atRest outside
    exact execCmd17_outside (s := s.withPending rest) atRest (by omega)
  case first =>
    intro atRest inStore
    exact ⟨_, execCmd17_first (s := s.withPending rest) atRest (by omega), stagedBlock_zero _ _,
      stagedBlock_one_add _ _, rfl⟩
  case later =>
    intro k serving
    exact ⟨_, execCmd17_serve (s := s.withPending rest) _ _ ready serving, rfl, rfl⟩

end Sys2Proof.Machine
end

section
/-! PROOF. Encoding and decoding (30_encoding.md R60 to R67): what decodes to an item is said once, in both directions,
and the round trips, the refused bytes and the words of the opcode table are read off from it. -/

namespace Sys2Proof

open Machine Machine.Literals

theorem ne_filler_of_mem {v : Byte} (mem : v ∈ opcodes) : v ≠ filler :=
  fun eq => filler_not_mem_opcodes (eq ▸ mem)

theorem frameInstr_mem {op : Byte} {arg : Argument} {trailer : Byte} {i : Instr}
    (command : frameInstr op arg trailer = some i) : op ∈ opcodes := by
  by_contra unlisted
  rw [(frameInstr_eq_none_iff op arg trailer).2 unlisted] at command
  exact nomatch command

/-- Every instruction but the filler is the command of a frame, and its encoding is that frame (R60, R62). -/
theorem exists_frame_of_ne_idle {i : Instr} (ne : i ≠ .idle) : ∃ op arg trailer,
    frameInstr op arg trailer = some i ∧ encode i = frameEncoding op arg trailer := by
  cases i with
  | idle => exact absurd rfl ne
  | _ => exact ⟨_, _, _, rfl, rfl⟩

/-- The command of a frame is encoded as that frame. -/
theorem encode_of_frameInstr {op : Byte} {arg : Argument} {trailer : Byte} {i : Instr}
    (command : frameInstr op arg trailer = some i) : encode i = frameEncoding op arg trailer := by
  obtain h | h | h | h | h | h | h := frameInstr_cases command <;> rw [h.1, h.2] <;> rfl

/-- Six bytes are the frame of the argument that the middle four are (R64). -/
theorem frameEncoding_frameArgument (op b1 b2 b3 b4 trailer : Byte) :
    frameEncoding op (frameArgument b1 b2 b3 b4) trailer = [op, b1, b2, b3, b4, trailer] := by
  obtain ⟨h1, h2, h3, h4⟩ := frameArgument_injective (frameArgument_extract (frameArgument b1 b2 b3 b4))
  rw [frameEncoding, h1, h2, h3, h4]

/-- An opcode and five more bytes are the command of their frame, with the bytes after it. -/
theorem decode_frame {op b1 b2 b3 b4 trailer : Byte} {i : Instr} (after : List Byte)
    (command : frameInstr op (frameArgument b1 b2 b3 b4) trailer = some i) :
    decode (op :: b1 :: b2 :: b3 :: b4 :: trailer :: after) = .ok (i, after) := by
  have mem := frameInstr_mem command
  simp only [decode, if_neg (ne_filler_of_mem mem), not_true_eq_false, mem, if_false, command]

/-- What decodes: the filler, or the six bytes of a command's frame. -/
theorem decode_eq_ok {bytes after : List Byte} {i : Instr} (decoded : decode bytes = .ok (i, after)) :
    (i = .idle ∧ bytes = filler :: after) ∨ ∃ op b1 b2 b3 b4 trailer,
      bytes = op :: b1 :: b2 :: b3 :: b4 :: trailer :: after ∧
        frameInstr op (frameArgument b1 b2 b3 b4) trailer = some i := by
  unfold decode at decoded
  split at decoded
  · exact nomatch decoded
  · rename_i first rest
    split at decoded
    · rename_i isFiller
      cases decoded
      exact .inl ⟨rfl, by rw [isFiller]⟩
    · split at decoded
      · exact nomatch decoded
      · split at decoded
        · rename_i b1 b2 b3 b4 trailer tail
          split at decoded
          · rename_i command
            cases decoded
            exact .inr ⟨_, _, _, _, _, _, rfl, command⟩
          · exact nomatch decoded
        · exact nomatch decoded

/-- An opcode is not refused as unknown, however few bytes follow it. -/
theorem decode_opcode_ne_unknown {v : Byte} (mem : v ∈ opcodes) (rest : List Byte) (first : Byte) :
    decode (v :: rest) ≠ .error (.unknownCommand first) := by
  simp only [decode, if_neg (ne_filler_of_mem mem), not_true_eq_false, mem, if_false]
  split
  · rename_i b1 b2 b3 b4 trailer tail
    obtain ⟨i, command⟩ := exists_frameInstr (frameArgument b1 b2 b3 b4) trailer mem
    simp [command]
  · simp

/-- The first byte of a 48-bit word is the one under the mask of the table (R60, R62). -/
theorem tableByte_zero_of_mask {w : Nat} {op : Byte} (masked : w &&& 0xFF0000000000 = op.toNat * 2 ^ 40) :
    tableByte 48 w 0 = op := by
  have shifted := congrArg (· >>> 40) masked
  have low : w >>> 40 &&& 255 = w >>> 40 % 256 := Nat.and_two_pow_sub_one_eq_mod _ 8
  simp only [Nat.shiftRight_and_distrib, Nat.reduceShiftRight, low] at shifted
  apply BitVec.eq_of_toNat_eq
  simp [tableByte, Nat.shiftRight_eq_div_pow] at shifted ⊢
  omega

/-- Bits [39:8] of a 48-bit word are the argument (R60, R64). -/
theorem frameArgument_tableByte (w : Nat) : frameArgument (tableByte 48 w 1) (tableByte 48 w 2) (tableByte 48 w 3)
    (tableByte 48 w 4) = BitVec.ofNat 32 (w / 256) := by
  apply BitVec.eq_of_toNat_eq
  rw [frameArgument_toNat]
  simp [tableByte, Nat.shiftRight_eq_div_pow]
  omega

/-- A 48-bit word is the command of its opcode byte, its argument bits and its trailer bits. -/
theorem decodeTableWord_of_mask {w : Nat} {op : Byte} {i : Instr} (masked : w &&& 0xFF0000000000 = op.toNat * 2 ^ 40)
    (command : frameInstr op (BitVec.ofNat 32 (w / 256)) (BitVec.ofNat 8 w) = some i) :
    decodeTableWord 48 w = some i := by
  refine decodeTableWord_of_decode rfl (decode_frame (after := []) ?_)
  rw [tableByte_zero_of_mask masked, frameArgument_tableByte]
  exact command

/-- A frame numbered as a 48-bit word is read back from it byte by byte. -/
theorem tableBytes_tableWord_frame (b0 b1 b2 b3 b4 b5 : Byte) :
    tableBytes 48 (tableWord [b0, b1, b2, b3, b4, b5]) = [b0, b1, b2, b3, b4, b5] := by
  have h0 := b0.isLt; have h1 := b1.isLt; have h2 := b2.isLt
  have h3 := b3.isLt; have h4 := b4.isLt; have h5 := b5.isLt
  simp only [tableBytes, tableByte, tableWord, List.foldl, Nat.shiftRight_eq_div_pow, List.cons.injEq]
  refine ⟨?_, ?_, ?_, ?_, ?_, ?_, trivial⟩ <;> exact BitVec.eq_of_toNat_eq (by simp; omega)

/-- Settles O1: the filler decodes as it stands, and a command as the frame it is encoded as. -/
theorem decodeOfEncodeIsTheInstruction : Obligations.DecodeOfEncodeIsTheInstruction := by
  intro i after
  by_cases idle : i = .idle
  · subst idle; rfl
  · obtain ⟨op, arg, trailer, command, encoded⟩ := exists_frame_of_ne_idle idle
    rw [encoded]
    exact decode_frame after (by rw [frameArgument_extract]; exact command)

/-- Settles O2: whatever decodes is the filler's byte or a frame, and a frame is the encoding of its command. -/
theorem decodedBytesAreTheEncoding : Obligations.DecodedBytesAreTheEncoding := by
  intro bytes i after decoded
  obtain ⟨rfl, rfl⟩ | ⟨op, b1, b2, b3, b4, trailer, rfl, command⟩ := decode_eq_ok decoded
  · rfl
  · rw [encode_of_frameInstr command, frameEncoding_frameArgument]
    rfl

/-- Settles O3: the filler and the opcodes get another answer, every other byte this one; the rest is a count. -/
theorem unknownFirstBytesAreRefused : Obligations.UnknownFirstBytesAreRefused := by
  refine ⟨fun v rest => ⟨fun refused => ⟨?notFiller, ?notOpcode⟩, ?refused⟩, by decide +kernel⟩
  case notFiller => rintro rfl; exact nomatch refused
  case notOpcode => exact fun mem => decode_opcode_ne_unknown mem rest v refused
  case refused =>
    rintro ⟨notFiller, notOpcode⟩
    exact (if_neg notFiller).trans (if_pos notOpcode)

/-- Settles O5: the mask selects the opcode byte, and each opcode byte its command. -/
theorem tableWordsFollowMaskAndMatch : Obligations.TableWordsFollowMaskAndMatch := by
  refine ⟨fun w => ⟨?cmd0, ?cmd8, ?cmd16, ?cmd17, ?acmd41, ?cmd55, ?cmd58⟩, by decide⟩
  case cmd0 => exact fun masked => decodeTableWord_of_mask (op := opCmd0) masked rfl
  case cmd8 => exact fun masked => decodeTableWord_of_mask (op := opCmd8) masked rfl
  case cmd16 => exact fun masked => decodeTableWord_of_mask (op := opCmd16) masked rfl
  case cmd17 => exact fun masked => decodeTableWord_of_mask (op := opCmd17) masked rfl
  case acmd41 => exact fun masked => decodeTableWord_of_mask (op := opAcmd41) masked rfl
  case cmd55 => exact fun masked => decodeTableWord_of_mask (op := opCmd55) masked rfl
  case cmd58 => exact fun masked => decodeTableWord_of_mask (op := opCmd58) masked rfl

end Sys2Proof

namespace Sys2Proof.Machine

open Literals

/-- What the stored frame decodes to is the command that its bytes say, for it is no single byte. -/
theorem frameInstr_of_decode_storedFrame {s : State} {i : Instr} (decoded : decode s.storedFrame = .ok (i, [])) :
    frameInstr s.storedOpcode s.storedArgument s.storedTrailer = some i := by
  obtain ⟨-, bytes⟩ | ⟨op, b1, b2, b3, b4, trailer, bytes, command⟩ := decode_eq_ok decoded
  · simp [State.storedFrame] at bytes
  · simp only [State.storedFrame, List.cons.injEq] at bytes
    obtain ⟨rfl, rfl, rfl, rfl, rfl, rfl, -⟩ := bytes
    exact command

/-- Settles O6: a stored frame is six bytes, so it decodes to its command; the one byte that is an item by itself is
the filler. -/
theorem stepRunsTheDecodedInstruction : Obligations.StepRunsTheDecodedInstruction := by
  refine ⟨?read, ?write⟩
  case read =>
    intro s rest i next ready decoded
    exact (step_register next rfl).trans
      (rxRead_dispatch (s := s.withPending rest) ready (frameInstr_of_decode_storedFrame decoded))
  case write =>
    intro s rest v i next place decoded
    obtain ⟨rfl, bytes⟩ | ⟨op, b1, b2, b3, b4, trailer, bytes, -⟩ := decode_eq_ok decoded
    · obtain rfl : v = filler := by simpa using bytes
      exact step_filler next ((isReceiving_eq_false_iff _).2 place)
    · simp at bytes

/-- A placed frame stands in the buffer of a block that is `Ready`, and the next operation is the read that runs it. -/
theorem placeItem_frame (s : State) {op b1 b2 b3 b4 trailer : Byte} (mem : op ∈ opcodes) :
    ∃ p, s.placeItem [op, b1, b2, b3, b4, trailer] = p ∧ p.Next .rxRead s.pending ∧ p.state = .ready ∧
      p.storedFrame = [op, b1, b2, b3, b4, trailer] ∧ p.backingStore = s.backingStore ∧ p.delivered = s.delivered := by
  refine ⟨_, if_pos mem, ⟨rfl, rfl, rfl⟩, rfl, ?_, rfl, rfl⟩
  simp [State.storedFrame, frameBytes]

/-- A placed filler is the next byte written, to a block that takes it as an item. -/
theorem placeItem_filler (s : State) (after : List Byte) :
    ∃ p, s.placeItem (filler :: after) = p ∧ p.Next (.txWrite filler) s.pending ∧ (p.state = .idle ∨ p.state = .ready) ∧
      p.backingStore = s.backingStore ∧ p.delivered = s.delivered := by
  unfold State.placeItem
  simp only [List.getD_cons_zero, filler_not_mem_opcodes, if_false]
  refine ⟨_, rfl, ⟨rfl, rfl, rfl⟩, ?_, rfl, rfl⟩
  cases receiving : s.state.isReceiving with
  | true => exact .inl rfl
  | false => exact (isReceiving_eq_false_iff s.state).1 receiving

/-- Settles O7: the word numbers the encoding, which is placed as a frame or as a byte to write, and O6 says what the
step after that runs. -/
theorem fetchWordRunsItsInstruction : Obligations.FetchWordRunsItsInstruction := by
  intro s i
  by_cases idle : i = .idle
  · subst idle
    obtain ⟨p, placed, next, place, store, results⟩ := placeItem_filler s [0, 0, 0, 0, 0]
    refine ⟨p.withPending s.pending, ?_, rfl, store, results⟩
    exact (congrArg step placed).trans (stepRunsTheDecodedInstruction.2 p _ filler .idle next place rfl)
  · obtain ⟨op, arg, trailer, command, encoded⟩ := exists_frame_of_ne_idle idle
    obtain ⟨p, placed, next, ready, frame, store, results⟩ := placeItem_frame s (b1 := arg.extractLsb' 24 8)
      (b2 := arg.extractLsb' 16 8) (b3 := arg.extractLsb' 8 8) (b4 := arg.extractLsb' 0 8) (trailer := trailer)
      (frameInstr_mem command)
    have decoded : decode p.storedFrame = .ok (i, []) := by
      rw [frame]
      exact decode_frame [] (by rw [frameArgument_extract]; exact command)
    refine ⟨p.withPending s.pending, ?_, rfl, store, results⟩
    rw [encoded, frameEncoding, State.withFetchWord, ← stepRunsTheDecodedInstruction.1 p _ i next ready decoded,
      ← placed]
    exact congrArg (fun bytes => step (s.placeItem bytes)) (tableBytes_tableWord_frame _ _ _ _ _ _)

end Sys2Proof.Machine
end

section
/-! PROOF. Frames: what an instruction, an operation on the registers, an operation and a step leave unchanged, read off
from the relations that list their next states. -/

namespace Sys2Proof.Machine

open Literals

section
variable {i : Instr} {op : HostOp} {s t : State} {f : Fatal}

/-- `s` after the first read of a CMD17 that has staged `block`: the latency called, the cursor at 0 and the start token
delivered (R143 to R145). The block is a parameter, so that no proof about another field compares its 513 bytes. -/
def State.serving (s : State) (block : Vector Byte Config.stagingBytes) : State :=
  { s with
    staging := block, blockReadIndex := some 0, latencyCalls := latencyMs :: s.latencyCalls
    delivered := .byte startToken :: s.delivered }

theorem State.serving_of_staging (s : State) (block : Vector Byte Config.stagingBytes) :
    ((({ s with staging := block } : State).latency latencyMs).setBlockIndex (some 0)).deliver (.byte startToken) =
      s.serving block := rfl

/-- What the first read of a CMD17 in range answers. -/
theorem State.serving_eq (s : State) (n : Nat) :
    (((s.stageBlock n).latency latencyMs).setBlockIndex (some 0)).deliver (.byte startToken) =
      s.serving (stagedBlock s.backingStore n) := s.serving_of_staging _

section
variable (s : State) (block : Vector Byte Config.stagingBytes)

theorem State.serving_state : (s.serving block).state = s.state := rfl
theorem State.serving_commandBuffer : (s.serving block).commandBuffer = s.commandBuffer := rfl
theorem State.serving_commandLength : (s.serving block).commandLength = s.commandLength := rfl
theorem State.serving_cmd8ReplyIndex : (s.serving block).cmd8ReplyIndex = s.cmd8ReplyIndex := rfl
theorem State.serving_cmd58ReplyIndex : (s.serving block).cmd58ReplyIndex = s.cmd58ReplyIndex := rfl
theorem State.serving_fault : (s.serving block).fault = s.fault := rfl
theorem State.serving_lifecycle : (s.serving block).lifecycle = s.lifecycle := rfl
theorem State.serving_pending : (s.serving block).pending = s.pending := rfl
theorem State.serving_delivered : (s.serving block).delivered = .byte startToken :: s.delivered := rfl

/-- A load of the start token delivers it zero-extended (R42). -/
theorem State.serving_widened_delivered (w : Nat) :
    ((s.serving block).widened w).delivered = .word w (BitVec.ofNat w 0xFE) :: s.delivered := by
  have token : startToken.setWidth w = BitVec.ofNat w 0xFE := BitVec.eq_of_toNat_eq (by simp [startToken])
  exact congrArg (HostResult.word w · :: s.delivered) token

end

theorem ExecStep.commandBuffer_eq (run : ExecStep i s t) : t.commandBuffer = s.commandBuffer := by
  cases run with
  | blockFirst => rw [s.serving_eq, State.serving_commandBuffer]
  | _ => rfl

theorem ExecStep.pending_eq (run : ExecStep i s t) : t.pending = s.pending := by
  cases run with
  | blockFirst => rw [s.serving_eq, State.serving_pending]
  | _ => rfl

theorem ExecStep.lifecycle_eq (run : ExecStep i s t) : t.lifecycle = s.lifecycle := by
  cases run with
  | blockFirst => rw [s.serving_eq, State.serving_lifecycle]
  | _ => rfl

/-- An instruction delivers one result. -/
theorem ExecStep.delivered_eq (run : ExecStep i s t) : ∃ r, t.delivered = r :: s.delivered := by
  cases run with
  | blockFirst => exact ⟨_, by rw [s.serving_eq, State.serving_delivered]⟩
  | _ => exact ⟨_, rfl⟩

theorem ExecStep.cmd8ReplyIndex_eq (run : ExecStep i s t) :
    t.cmd8ReplyIndex = s.cmd8ReplyIndex ∨ ∃ a r, i = .cmd8 a r := by
  cases run with
  | cmd8Mid a r | cmd8Last a r => exact .inr ⟨a, r, rfl⟩
  | blockFirst => rw [s.serving_eq]; exact .inl (s.serving_cmd8ReplyIndex _)
  | _ => exact .inl rfl

theorem ExecStep.cmd58ReplyIndex_eq (run : ExecStep i s t) :
    t.cmd58ReplyIndex = s.cmd58ReplyIndex ∨ ∃ a r, i = .cmd58 a r := by
  cases run with
  | cmd58Mid a r | cmd58Last a r => exact .inr ⟨a, r, rfl⟩
  | blockFirst => rw [s.serving_eq]; exact .inl (s.serving_cmd58ReplyIndex _)
  | _ => exact .inl rfl

theorem ExecStep.blockReadIndex_eq (run : ExecStep i s t) :
    t.blockReadIndex = s.blockReadIndex ∨ ∃ a r, i = .cmd17 a r := by
  cases run with
  | blockFirst a r | blockMid a r | blockLast a r => exact .inr ⟨a, r, rfl⟩
  | _ => exact .inl rfl

/-- Only the first read of a CMD17 stages a block, calls the latency or takes the block cursor from rest. -/
theorem ExecStep.eq_serving_or (run : ExecStep i s t) :
    (t.staging = s.staging ∧ t.latencyCalls = s.latencyCalls ∧ (s.blockReadIndex = none → t.blockReadIndex = none)) ∨
      ∃ a r, i = .cmd17 a r ∧ s.blockReadIndex = none ∧ a.toNat ≤ 8191 ∧
        t = s.serving (stagedBlock s.backingStore a.toNat) := by
  cases run with
  | blockFirst a r _ rest inStore => exact .inr ⟨a, r, rfl, rest, inStore, s.serving_eq _⟩
  | blockMid a r _ k at_ => exact .inl ⟨rfl, rfl, fun rest => nomatch at_.symm.trans rest⟩
  | blockLast => exact .inl ⟨rfl, rfl, fun _ => rfl⟩
  | _ => exact .inl ⟨rfl, rfl, id⟩

/-- The only fatal of an instruction is the range check of CMD17 (R142). -/
theorem ExecStep.fault_eq_or (run : ExecStep i s t) :
    t.fault = s.fault ∨ ∃ a r, i = .cmd17 a r ∧ s.blockReadIndex = none ∧ 8191 < a.toNat ∧
      t = s.faulted .addressRange (.blockNumber a.toNat) := by
  cases run with
  | blockOut a r _ rest outside => exact .inr ⟨a, r, rfl, rest, outside, rfl⟩
  | blockFirst => rw [s.serving_eq]; exact .inl (s.serving_fault _)
  | _ => exact .inl rfl

/-- An instruction leaves the framing state as it is, or its reply is over with the byte it delivers. -/
theorem ExecStep.state_eq_or (run : ExecStep i s t) :
    (t.state = s.state ∧ t.commandLength = s.commandLength) ∨
      (t.state = .idle ∧ t.commandLength = 0 ∧ i ≠ .idle ∧ ∃ b, t.delivered = .byte b :: s.delivered) := by
  cases run with
  | cmd0 | cmd16 | cmd55 | acmd41 | cmd8Last | cmd58Last | blockLast => exact .inr ⟨rfl, rfl, nofun, _, rfl⟩
  | blockFirst => rw [s.serving_eq]; exact .inl ⟨s.serving_state _, s.serving_commandLength _⟩
  | _ => exact .inl ⟨rfl, rfl⟩

theorem RegisterStep.pending_eq (run : RegisterStep op s t) : t.pending = s.pending := by
  cases run with
  | dispatch _ _ _ _ _ run => exact run.pending_eq
  | _ => rfl

theorem RegisterStep.lifecycle_eq (run : RegisterStep op s t) : t.lifecycle = s.lifecycle := by
  cases run with
  | dispatch _ _ _ _ _ run => exact run.lifecycle_eq
  | _ => rfl

/-- Where the framing state of an operation on the registers differs: an opcode opens its frame, the turnaround read
enters `Ready`, and the last byte of a reply enters `Idle`. -/
theorem RegisterStep.state_eq_or (run : RegisterStep op s t) :
    t.state = s.state ∨
      (s.state.isReceiving = false ∧ t.state.isReceiving = true) ∨
      (op = .rxRead ∧ s.state ≠ .ready ∧ 6 ≤ s.commandLength.val ∧ t.state = .ready) ∨
      (op = .rxRead ∧ s.state = .ready ∧ t.state = .idle ∧ ∃ b, t.delivered = .byte b :: s.delivered) := by
  cases run with
  | begin _ _ open_ c recv => exact .inr (.inl ⟨open_, recvState_isReceiving recv⟩)
  | turnaround _ ne le => exact .inr (.inr (.inl ⟨rfl, ne, le, rfl⟩))
  | dispatch _ _ ready _ _ run =>
    obtain ⟨same, -⟩ | ⟨idle, -, -, byte⟩ := run.state_eq_or
    · exact .inl same
    · exact .inr (.inr (.inr ⟨rfl, ready, idle, byte⟩))
  | _ => exact .inl rfl

/-- A latched fatal is one of the causes that are raised, and `UnknownDispatch` only by a stored byte that is no opcode;
nothing else of the block changes. -/
theorem RegisterStep.eq_faulted (run : RegisterStep op s t) (healthy : s.fault = none) (latched : t.fault = some f) :
    t = s.faulted f.cause f.info ∧ f.cause ≠ .bufferOverflow ∧
      (f.cause = .unknownDispatch → s.state = .ready ∧ s.storedOpcode ∉ opcodes) := by
  cases run with
  | overlap | unknown | overrun => cases latched; exact ⟨rfl, nofun, nofun⟩
  | unknownDispatch _ ready mem => cases latched; exact ⟨rfl, nofun, fun _ => ⟨ready, mem⟩⟩
  | dispatch _ _ _ _ _ run =>
    obtain same | ⟨_, _, -, -, -, rfl⟩ := run.fault_eq_or
    · exact nomatch healthy ▸ same ▸ latched
    · cases latched; exact ⟨rfl, nofun, nofun⟩
  | _ => exact nomatch healthy.symm.trans latched

/-- A load widens bytes only, so a fatal passes it unchanged. -/
theorem State.faulted_widened (s : State) (c : FatalCause) (d : FatalInfo) (w : Nat) :
    (s.faulted c d).widened w = s.faulted c d := rfl

/-- An operation that latches a fatal changes nothing but the latch and the results (R164). -/
theorem PerformStep.eq_faulted (run : PerformStep op s t) (healthy : s.fault = none) (latched : t.fault = some f) :
    t = s.faulted f.cause f.info := by
  cases run with
  | register _ run => exact (run.eq_faulted healthy latched).1
  | store _ _ _ _ run => exact (run.eq_faulted healthy latched).1
  | load _ _ _ run => rw [(run.eq_faulted healthy latched).1, State.faulted_widened]
  | construct => exact nomatch latched
  | loaded => exact nomatch healthy.symm.trans latched
  | badSize | missing => cases latched; rfl

/-- The life of the device moves by an accepted `Construct` and an accepted image, one place at a time (R190, R194). -/
theorem PerformStep.lifecycle_eq_or (run : PerformStep op s t) :
    t.lifecycle = s.lifecycle ∨ (op = .construct ∧ s.lifecycle = .absent ∧ t.lifecycle = .constructed) ∨
      ∃ image, op = .deviceReset (some image) ∧ s.lifecycle = .constructed ∧ t.lifecycle = .running := by
  cases run with
  | register _ run => exact .inl run.lifecycle_eq
  | store _ _ _ _ run => exact .inl run.lifecycle_eq
  | load _ _ _ run => exact .inl run.lifecycle_eq
  | construct absent => exact .inr (.inl ⟨rfl, absent, rfl⟩)
  | loaded constructed => exact .inr (.inr ⟨_, rfl, constructed, rfl⟩)
  | badSize | missing => exact .inl rfl

/-- Among the operations on the registers only a read can start a block transfer, and only it calls the latency. -/
theorem RegisterStep.eq_serving_or (run : RegisterStep op s t) :
    (t.latencyCalls = s.latencyCalls ∧ (s.blockReadIndex = none → t.blockReadIndex = none)) ∨
      (op = .rxRead ∧ s.state = .ready ∧ s.storedOpcode = 0x51 ∧ s.blockReadIndex = none ∧
        s.storedArgument.toNat ≤ 8191 ∧ t = s.serving (stagedBlock s.backingStore s.storedArgument.toNat)) := by
  cases run with
  | dispatch _ _ ready i stored run =>
    obtain ⟨-, calls, cursor⟩ | ⟨a, r, rfl, rest, inStore, rfl⟩ := run.eq_serving_or
    · exact .inl ⟨calls, cursor⟩
    · have command := frameInstr_cases stored
      simp only [reduceCtorEq, and_false, false_or, or_false, Instr.cmd17.injEq] at command
      obtain ⟨opcode, rfl, -⟩ := command
      exact .inr ⟨rfl, ready, opcode, rest, inStore, rfl⟩
  | _ => exact .inl ⟨rfl, id⟩

theorem routeStore_ne_rxRead (offset data : Nat) : routeStore offset data ≠ .rxRead := by
  unfold routeStore
  split <;> nofun

/-- A load is a read of the incoming-data register only at that register. -/
theorem routeLoad_eq_rxRead {offset : Nat} (read : routeLoad offset = .rxRead) : offset = Config.rxOffset := by
  unfold routeLoad at read
  split at read
  · assumption
  · exact nomatch read

end

/-- Settles O36: clause by clause the frame of an instruction. -/
theorem instructionFrame : Obligations.InstructionFrame := by
  intro i s t ran
  have run := exec_next ran
  have store := run.backingStore_eq
  refine ⟨run.commandBuffer_eq, store, fun a => by rw [store], run.pending_eq, run.lifecycle_eq, run.delivered_eq,
    run.cmd8ReplyIndex_eq, run.cmd58ReplyIndex_eq, run.blockReadIndex_eq, ?staging, ?fault, ?state⟩
  case staging =>
    exact run.eq_serving_or.imp (fun ⟨staging, calls, _⟩ => ⟨staging, calls⟩)
      fun ⟨a, r, command, rest, _⟩ => ⟨a, r, command, rest⟩
  case fault => exact run.fault_eq_or.imp id fun ⟨a, r, command, rest, outside, _⟩ => ⟨a, r, command, rest, outside⟩
  case state => exact run.state_eq_or.imp id fun ⟨idle, empty, ne, _⟩ => ⟨idle, empty, ne⟩

/-- Settles O10: a step that latches a fatal performed an operation, whose next state is fixed by that fatal. -/
theorem fatalEntryIsPrecise : Obligations.FatalEntryIsPrecise := by
  intro s t op rest f healthy waiting stepped latched
  obtain ⟨-, ⟨empty, -⟩ | ⟨op', rest', waiting', run⟩⟩ := step_next stepped
  · exact nomatch waiting.symm.trans empty
  · cases waiting.symm.trans waiting'
    exact run.eq_faulted healthy latched

/-- Settles O19: of the six outcomes of a write only the start of a frame changes `state`, and none delivers a byte or
reaches a field of the read path. -/
theorem writePathProducesNoReply : Obligations.WritePathProducesNoReply := by
  intro s t rest v next stepped
  have run := registerOp_next ((step_register next rfl).symm.trans stepped)
  cases run with
  | begin _ _ _ c recv =>
    exact ⟨.inr (recvState_isReceiving recv), nofun, rfl, rfl, rfl, rfl, rfl, rfl⟩
  | filler | overlap | unknown | append | overrun => exact ⟨.inl rfl, nofun, rfl, rfl, rfl, rfl, rfl, rfl⟩

/-- Settles O27: an operation other than a read leaves the calls and starts nothing; the read, or the load routed to it,
that starts a block transfer is the one that calls the latency and delivers the start token. -/
theorem latencyIsCalledOncePerBlockRead : Obligations.LatencyIsCalledOncePerBlockRead := by
  intro s t stepped
  obtain ⟨-, ⟨-, rfl⟩ | ⟨op, rest, waiting, run⟩⟩ := step_next stepped
  · exact .inl ⟨rfl, fun ⟨rest, moved⟩ => moved rest⟩
  have unmoved {u : State} (calls : u.latencyCalls = s.latencyCalls)
      (cursor : s.blockReadIndex = none → u.blockReadIndex = none) :
      u.latencyCalls = s.latencyCalls ∧ ¬ (s.blockReadIndex = none ∧ u.blockReadIndex ≠ none) :=
    ⟨calls, fun ⟨rest, moved⟩ => moved (cursor rest)⟩
  cases run with
  | construct => exact .inl (unmoved rfl fun _ => rfl)
  | loaded | badSize | missing => exact .inl (unmoved rfl id)
  | register _ run =>
    obtain ⟨calls, cursor⟩ | ⟨rfl, ready, opcode, atRest, inStore, rfl⟩ := run.eq_serving_or
    · exact .inl (unmoved calls cursor)
    · exact .inr ⟨rfl, ready, opcode, atRest, inStore, rfl, stagedBlock_zero _ _, .inl ⟨waiting, rfl⟩⟩
  | store _ _ _ _ run =>
    obtain ⟨calls, cursor⟩ | ⟨read, -⟩ := run.eq_serving_or
    · exact .inl (unmoved calls cursor)
    · exact absurd read (routeStore_ne_rxRead _ _)
  | load pos _ inside run =>
    obtain ⟨calls, cursor⟩ | ⟨read, ready, opcode, atRest, inStore, rfl⟩ := run.eq_serving_or
    · exact .inl (unmoved calls cursor)
    · obtain ⟨rfl, -⟩ := (windowOffset_eq_some_iff _ _).1 inside
      exact .inr ⟨rfl, ready, opcode, atRest, inStore, rfl, stagedBlock_zero _ _,
        .inr ⟨_, pos, routeLoad_eq_rxRead read ▸ waiting, State.serving_widened_delivered _ _ _⟩⟩

end Sys2Proof.Machine
end

section
/-! PROOF. Single steps: the halted and the quiet block, the last byte of a frame, the read outside `Ready`, the
reserved offsets, and the loads and stores that the window routes (20_memory.md R40 to R48). -/

namespace Sys2Proof.Machine

open Literals

section
variable {s : State} {rest : List HostOp}

/-- The seventh byte of a frame is fatal, whatever it is (R93, D7). -/
theorem step_overrun {v : Byte} (next : s.Next (.txWrite v) rest) (recv : s.state.isReceiving = true)
    (le : 6 ≤ s.commandLength.val) : step s = .next (s.afterFatal rest ⟨.frameOverrun, .byte v⟩) :=
  (step_register next rfl).trans (txWrite_overrun (s := s.withPending rest) recv le)

/-- The turnaround read of a complete frame (R111). -/
theorem step_turnaround (next : s.Next .rxRead rest) (ne : s.state ≠ .ready) (le : 6 ≤ s.commandLength.val) :
    step s = .next (s.enterReady.after rest (.byte filler)) :=
  (step_register next rfl).trans (rxRead_turnaround (s := s.withPending rest) ne le)

theorem step_otherRead {offset : Nat} (next : s.Next (.otherRead offset) rest) :
    step s = .next (s.after rest (.byte 0x00)) := step_register next rfl

theorem step_otherWrite {offset : Nat} {v : Byte} (next : s.Next (.otherWrite offset v) rest) :
    step s = .next (s.after rest .done) := step_register next rfl

/-- An address of the window is its base and an offset in it. -/
theorem exists_offset {address : Nat} (base : Config.base ≤ address)
    (lt : address < Config.base + Config.windowBytes) :
    ∃ offset, offset < Config.windowBytes ∧ address = Config.base + offset :=
  ⟨address - Config.base, by omega, by omega⟩

/-- A store in the window is the operation its offset says. -/
theorem step_store {offset bytes data : Nat} (pos : 1 ≤ bytes) (fits : data < 256 ^ bytes)
    (next : s.Next (.store (Config.base + offset) bytes data) rest) (lt : offset < Config.windowBytes) :
    step s = registerOp (routeStore offset data) (s.withPending rest) := by
  rw [step_of_next next, perform_store (s := s.withPending rest) next.2.1 pos fits, storeAccess, windowOffset_add lt]

theorem step_store_outside {address bytes data : Nat} (pos : 1 ≤ bytes) (fits : data < 256 ^ bytes)
    (next : s.Next (.store address bytes data) rest)
    (outside : address < Config.base ∨ Config.base + Config.windowBytes ≤ address) :
    step s = .refused .outsideWindow := by
  rw [step_of_next next, perform_store (s := s.withPending rest) next.2.1 pos fits, storeAccess,
    windowOffset_outside outside]

/-- A load in the window is the operation its offset says, the result widened. -/
theorem step_load {offset bytes : Nat} (pos : 1 ≤ bytes)
    (next : s.Next (.load (Config.base + offset) bytes) rest) (lt : offset < Config.windowBytes) :
    step s = widenNewest (8 * bytes) (registerOp (routeLoad offset) (s.withPending rest)) := by
  rw [step_of_next next, perform_load (s := s.withPending rest) next.2.1 pos, loadAccess, windowOffset_add lt]

theorem step_load_outside {address bytes : Nat} (pos : 1 ≤ bytes) (next : s.Next (.load address bytes) rest)
    (outside : address < Config.base ∨ Config.base + Config.windowBytes ≤ address) :
    step s = .refused .outsideWindow := by
  rw [step_of_next next, perform_load (s := s.withPending rest) next.2.1 pos, loadAccess, windowOffset_outside outside]

/-- Widening changes the newest result only: a byte is zero-extended (R42). -/
theorem State.widened_of_byte {u : State} {b : Byte} {older : List HostResult} (w : Nat)
    (newest : u.delivered = .byte b :: older) :
    u.widened w = { u with delivered := .word w (b.setWidth w) :: older } := by
  simp [State.widened, newest, HostResult.widen]

theorem State.widened_of_fatal {u : State} {f : Fatal} {older : List HostResult} (w : Nat)
    (newest : u.delivered = .fatal f :: older) : u.widened w = u := by
  cases u
  cases newest
  rfl

end

/-- Settles O8: nothing waits, and the step is the state itself. -/
theorem blockNeverActsAlone : Obligations.BlockNeverActsAlone := by
  intro s healthy empty
  unfold step
  rw [healthy, empty]

/-- Settles O9: the latch is looked at before the queue. -/
theorem fatalHasNoReturn : Obligations.FatalHasNoReturn := by
  intro s f latched
  unfold step
  rw [latched]

/-- Settles O17: the overrun law of `txWrite` carried to the step. -/
theorem seventhFrameByteIsFatal : Obligations.SeventhFrameByteIsFatal := by
  intro s rest v next recv full
  exact step_overrun next recv (Nat.le_of_eq full.symm)

/-- Settles O20: the read waits with fewer than six bytes there and turns the block around with six. -/
theorem readOutsideReadyReturnsTheFiller : Obligations.ReadOutsideReadyReturnsTheFiller := by
  intro s rest next ne
  by_cases le : 6 ≤ s.commandLength.val
  · rw [step_turnaround next ne le, if_pos le]
    rfl
  · rw [step_rxRead_wait next ne (Nat.lt_of_not_le le), if_neg le]
    rfl

/-- Settles O28: neither access looks at its offset or at the state. -/
theorem reservedOffsetsAreInert : Obligations.ReservedOffsetsAreInert := by
  intro s rest offset v
  exact ⟨step_otherRead, step_otherWrite⟩

/-- Settles O29: an address of the window has its offset, and the offset alone routes the store. -/
theorem storesAreRoutedByOffset : Obligations.StoresAreRoutedByOffset := by
  refine ⟨Config.txOffset_lt_windowBytes, Config.rxOffset_lt_windowBytes, Config.rxOffset_ne_txOffset.symm, ?_⟩
  intro s rest address bytes data pos fits next
  refine ⟨?register, ?elsewhere, step_store_outside pos fits next⟩
  case register =>
    rintro rfl
    have write : (s.withPending (.txWrite (BitVec.ofNat 8 data) :: rest)).Next (.txWrite (BitVec.ofNat 8 data)) rest :=
      ⟨next.1, next.2.1, rfl⟩
    rw [step_store pos fits next Config.txOffset_lt_windowBytes, step_register write rfl, routeStore, if_pos rfl]
    rfl
  case elsewhere =>
    intro base lt ne
    obtain ⟨offset, inside, rfl⟩ := exists_offset base lt
    rw [step_store pos fits next inside, routeStore, if_neg fun eq => ne (by rw [eq])]
    rfl

/-- Settles O30: as for a store, the offset alone routes the load; a byte is widened and a fatal passes. -/
theorem loadsAreRoutedByOffset : Obligations.LoadsAreRoutedByOffset := by
  intro s rest address bytes pos next
  refine ⟨?register, ?elsewhere, step_load_outside pos next⟩
  case register =>
    rintro rfl u read
    have waiting : (s.withPending (.rxRead :: rest)).Next .rxRead rest := ⟨next.1, next.2.1, rfl⟩
    have answered : registerOp .rxRead (s.withPending rest) = .next u := (step_register waiting rfl).symm.trans read
    have loaded : step s = .next (u.widened (8 * bytes)) := by
      rw [step_load pos next Config.rxOffset_lt_windowBytes, routeLoad, if_pos rfl, answered]
      rfl
    exact ⟨fun b newest => by rw [loaded, State.widened_of_byte _ newest],
      fun f newest => by rw [loaded, State.widened_of_fatal _ newest]⟩
  case elsewhere =>
    intro base lt ne
    obtain ⟨offset, inside, rfl⟩ := exists_offset base lt
    rw [step_load pos next inside, routeLoad, if_neg fun eq => ne (by rw [eq])]
    have zero : (0x00 : Byte).setWidth (8 * bytes) = 0 := BitVec.setWidth_zero _ _
    refine congrArg Host.Outcome.next ((State.widened_of_byte (u := s.after rest (.byte 0x00)) _ rfl).trans ?_)
    rw [zero]
    rfl

end Sys2Proof.Machine
end

section
/-! PROOF. The two platform operations (70_reset_and_hazards.md R190 to R194): `Construct`, `DeviceReset` and the load
of an image, and what is refused out of its place. -/

namespace Sys2Proof.Machine

open Literals

section
variable {s : State} {op : HostOp} {rest : List HostOp}

/-- The step of a block without a fatal performs the oldest operation, in service or not. -/
theorem step_of_pending (healthy : s.fault = none) (waiting : s.pending = op :: rest) :
    step s = perform op (s.withPending rest) := by
  unfold step
  rw [healthy, waiting]

theorem step_construct (healthy : s.fault = none) (waiting : s.pending = .construct :: rest)
    (absent : s.lifecycle = .absent) : step s = .next (s.construct.after rest .done) :=
  (step_of_pending healthy waiting).trans (if_pos absent)

theorem step_construct_refused (healthy : s.fault = none) (waiting : s.pending = .construct :: rest)
    (ne : s.lifecycle ≠ .absent) : step s = .refused .resetOutOfPlace :=
  (step_of_pending healthy waiting).trans (if_neg ne)

theorem step_deviceReset_refused {image : Option (List Byte)} (healthy : s.fault = none)
    (waiting : s.pending = .deviceReset image :: rest) (ne : s.lifecycle ≠ .constructed) :
    step s = .refused .resetOutOfPlace :=
  (step_of_pending healthy waiting).trans (if_neg ne)

theorem step_deviceReset {image : Option (List Byte)} (healthy : s.fault = none)
    (waiting : s.pending = .deviceReset image :: rest) (constructed : s.lifecycle = .constructed) :
    step s = deviceReset image (s.withPending rest) :=
  (step_of_pending healthy waiting).trans (if_pos constructed)

theorem deviceReset_accept {bytes : List Byte} (size : bytes.length = 4194304) :
    deviceReset (some bytes) s = .next ((s.accept bytes).deliver .done) := if_pos size

theorem deviceReset_badSize {bytes : List Byte} (size : bytes.length ≠ 4194304) :
    deviceReset (some bytes) s = .next (s.faulted .configError (.imageSize bytes.length)) := if_neg size

/-- A host operation that is an access at all is refused before service (R193). -/
theorem perform_before_service (host : op ≠ .construct ∧ ∀ image, op ≠ .deviceReset image)
    (formed : op.wellFormed = true) (ne : s.lifecycle ≠ .running) : perform op s = .refused .trafficBeforeReset := by
  unfold perform
  rw [if_neg (by simp [formed])]
  cases op with
  | construct => exact absurd rfl host.1
  | deviceReset image => exact absurd rfl (host.2 image)
  | _ => exact if_neg ne

end

/-- The load of bytes that `IMAGE` has at their addresses lists nothing. -/
theorem Memory.load_image (a : Nat) (bytes : List Byte)
    (same : ∀ (k : Nat) (h : k < bytes.length), bytes[k] = Config.image (a + k)) : Memory.load [] a bytes = [] := by
  induction bytes generalizing a with
  | nil => rfl
  | cons b bytes ih =>
    have first : b = Config.image a := same 0 (Nat.succ_pos _)
    rw [Memory.load, Memory.write, if_pos first]
    refine ih (a + 1) fun k h => ?_
    rw [Nat.add_right_comm]
    exact same (k + 1) (Nat.succ_lt_succ h)

/-- Settles O31: each field by evaluation, and an empty list of differences reads as `IMAGE`. -/
theorem resetState : Obligations.ResetState :=
  ⟨rfl, rfl, rfl, rfl, rfl, rfl, rfl, fun a _ => Memory.byteAt_nil a⟩

/-- Settles O32: the image is looked at for its size and then copied by the laws of the store. -/
theorem deviceResetLoadsTheImage : Obligations.DeviceResetLoadsTheImage := by
  intro s rest healthy constructed canonical
  refine ⟨?loaded, ?badSize, ?missing⟩
  case loaded =>
    intro image waiting size
    have fits : 0 + image.length ≤ storeBytes := by rw [size]; decide
    refine ⟨_, (step_deviceReset healthy waiting constructed).trans (deviceReset_accept size),
      Memory.wf_load canonical fits, fun a h => ?_, rfl⟩
    have read := Memory.byteAt_load canonical fits a h
    rw [Nat.zero_add] at read
    exact read
  case badSize =>
    intro image waiting size
    exact (step_deviceReset healthy waiting constructed).trans (deviceReset_badSize size)
  case missing => exact fun waiting => step_deviceReset healthy waiting constructed

/-- Settles O33: `Construct` sets the protocol state, and an image equal to `IMAGE` leaves the list of differences
empty. -/
theorem resetIsConstructThenDeviceReset : Obligations.ResetIsConstructThenDeviceReset := by
  intro s image size same absent healthy store results calls buffer staging waiting
  have constructed := step_construct healthy waiting absent
  have loaded := (step_deviceReset (s := s.construct.after [.deviceReset (some image)] .done) rfl rfl rfl).trans
    (deviceReset_accept size)
  rw [runFor_succ 1 constructed, runFor_succ 0 loaded]
  have unchanged : Memory.load s.backingStore 0 image = [] := by
    rw [store]
    exact Memory.load_image 0 image fun k h => by rw [Nat.zero_add, same k h]
  simp only [runFor, State.accept, State.deliver, State.withPending, State.after, State.construct, unchanged, results,
    calls, buffer, staging]
  rfl

/-- Settles O34: each operation out of its place is refused, and the life of the device moves as the relation of next
states says. -/
theorem resetsHappenOnceAndFirst : Obligations.ResetsHappenOnceAndFirst := by
  intro s op rest healthy waiting
  refine ⟨?construct, ?deviceReset, ?traffic, ?moves⟩
  case construct =>
    rintro ne rfl
    exact step_construct_refused healthy waiting ne
  case deviceReset =>
    rintro ne ⟨image, rfl⟩
    exact step_deviceReset_refused healthy waiting ne
  case traffic =>
    intro ne host
    rw [step_of_pending healthy waiting]
    obtain reg | ⟨address, bytes, data, rfl, pos, fits⟩ | ⟨address, bytes, rfl, pos⟩ := host
    · refine perform_before_service ?_ ?_ ne <;> cases op <;> simp_all [HostOp.onRegisters, HostOp.wellFormed]
    · exact perform_before_service ⟨nofun, nofun⟩ (by simp [HostOp.wellFormed, pos, fits]) ne
    · exact perform_before_service ⟨nofun, nofun⟩ (by simp [HostOp.wellFormed, pos]) ne
  case moves =>
    intro t stepped moved
    obtain ⟨-, ⟨empty, -⟩ | ⟨op', rest', waiting', run⟩⟩ := step_next stepped
    · exact nomatch waiting.symm.trans empty
    · cases waiting.symm.trans waiting'
      exact run.lifecycle_eq_or.resolve_left moved

end Sys2Proof.Machine
end

section
/-! PROOF. The invariant (10_state.md R35): while every cursor is at rest only the framing clauses are left to show, in
`Ready` only the cursors are, and each next state is of one of these two kinds or has the fields the clauses speak of
unchanged. -/

namespace Sys2Proof.Machine

open Literals

section
variable {s t : State} {i : Instr} {op : HostOp}

/-! ## The clauses by name -/

theorem State.ProtocolInv.idleAtRest (inv : s.ProtocolInv) : s.IdleAtRest := inv.1
theorem State.ProtocolInv.receivingFrame (inv : s.ProtocolInv) : s.ReceivingFrame := inv.2.1
theorem State.ProtocolInv.readyFrame (inv : s.ProtocolInv) : s.ReadyFrame := inv.2.2.1
theorem State.ProtocolInv.cmd8Cursor (inv : s.ProtocolInv) : s.Cmd8Cursor := inv.2.2.2.1
theorem State.ProtocolInv.cmd58Cursor (inv : s.ProtocolInv) : s.Cmd58Cursor := inv.2.2.2.2.1
theorem State.ProtocolInv.blockCursor (inv : s.ProtocolInv) : s.BlockCursor := inv.2.2.2.2.2.1

/-- In service the clauses on the protocol state hold. -/
theorem State.Inv.protocolInv (inv : s.Inv) (running : s.lifecycle = .running) : s.ProtocolInv :=
  inv.1 (by simp [running])

/-! ## What the clauses say of the cursors -/

/-- A cursor is at rest unless a reply of its own command is served in `Ready` ((I-d), (I-e), (I-f)). -/
theorem State.ProtocolInv.cmd8_rest (inv : s.ProtocolInv) (other : s.state = .ready → s.storedOpcode ≠ 0x48) :
    s.cmd8ReplyIndex = 0 := by
  by_contra served
  obtain ⟨ready, opcode⟩ := inv.cmd8Cursor.2 served
  exact other ready opcode

theorem State.ProtocolInv.cmd58_rest (inv : s.ProtocolInv) (other : s.state = .ready → s.storedOpcode ≠ 0x7A) :
    s.cmd58ReplyIndex = 0 := by
  by_contra served
  obtain ⟨ready, opcode⟩ := inv.cmd58Cursor.2 served
  exact other ready opcode

theorem State.ProtocolInv.block_rest (inv : s.ProtocolInv) (other : s.state = .ready → s.storedOpcode ≠ 0x51) :
    s.blockReadIndex = none := by
  by_contra served
  obtain ⟨-, ready, opcode, -⟩ := inv.blockCursor served
  exact other ready opcode

/-- No reply is partly served outside `Ready`. -/
theorem State.ProtocolInv.quiet_of_ne_ready (inv : s.ProtocolInv) (ne : s.state ≠ .ready) : s.replyActive = false :=
  (replyActive_eq_false_iff s).2
    ⟨inv.cmd8_rest (absurd · ne), inv.cmd58_rest (absurd · ne), inv.block_rest (absurd · ne)⟩

/-- A full buffer outside `Ready` is that of a frame being received. -/
theorem State.ProtocolInv.receiving_of_full (inv : s.ProtocolInv) (ne : s.state ≠ .ready)
    (le : 6 ≤ s.commandLength.val) : s.state.isReceiving = true := by
  by_contra open_
  obtain idle | ready := (isReceiving_eq_false_iff s.state).1 (by simpa using open_)
  · simp [(inv.idleAtRest idle).1] at le
  · exact ne ready

section
variable (inv : s.ProtocolInv) (stored : frameInstr s.storedOpcode s.storedArgument s.storedTrailer = some i)
include inv stored

/-- While another command's frame is stored, the cursor of a command is at rest. -/
theorem State.ProtocolInv.cmd8_rest_of_frame (other : ∀ a r, i ≠ .cmd8 a r) : s.cmd8ReplyIndex = 0 := by
  refine inv.cmd8_rest fun _ opcode => ?_
  rw [opcode] at stored
  exact other _ _ (Option.some.inj stored.symm)

theorem State.ProtocolInv.cmd58_rest_of_frame (other : ∀ a r, i ≠ .cmd58 a r) : s.cmd58ReplyIndex = 0 := by
  refine inv.cmd58_rest fun _ opcode => ?_
  rw [opcode] at stored
  exact other _ _ (Option.some.inj stored.symm)

theorem State.ProtocolInv.block_rest_of_frame (other : ∀ a r, i ≠ .cmd17 a r) : s.blockReadIndex = none := by
  refine inv.block_rest fun _ opcode => ?_
  rw [opcode] at stored
  exact other _ _ (Option.some.inj stored.symm)

end

/-! ## When the clauses hold -/

/-- With every cursor at rest the clauses on the cursors hold of themselves. -/
theorem protocolInv_of_quiet (quiet : s.replyActive = false) (idle : s.state = .idle → s.commandLength = 0)
    (receiving : s.state.isReceiving = true →
      1 ≤ s.commandLength.val ∧ s.commandLength.val ≤ 6 ∧ recvState s.storedOpcode = some s.state)
    (ready : s.ReadyFrame) : s.ProtocolInv := by
  obtain ⟨cmd8, cmd58, block⟩ := (replyActive_eq_false_iff s).1 quiet
  refine ⟨fun place => ⟨idle place, quiet⟩, fun place => ?_, ready, ⟨by simp [cmd8], (absurd cmd8 ·)⟩,
    ⟨by simp [cmd58], (absurd cmd58 ·)⟩, (absurd block ·), .inl cmd8, .inl cmd8, .inl cmd58⟩
  obtain ⟨pos, le, recv⟩ := receiving place
  exact ⟨pos, le, recv, quiet⟩

/-- A block reset to `Idle` with every cursor at rest. -/
theorem protocolInv_of_idle (idle : s.state = .idle) (empty : s.commandLength = 0) (quiet : s.replyActive = false) :
    s.ProtocolInv :=
  protocolInv_of_quiet quiet (fun _ => empty) (fun place => nomatch idle ▸ place) fun place => nomatch idle ▸ place

/-- In `Ready` the clauses on `Idle` and on a receiving frame are empty. -/
theorem protocolInv_of_ready (ready : s.state = .ready) (frame : s.ReadyFrame) (cmd8 : s.Cmd8Cursor)
    (cmd58 : s.Cmd58Cursor) (block : s.BlockCursor) (one : s.OneCursor) : s.ProtocolInv :=
  ⟨fun place => (nomatch ready ▸ place), fun place => (nomatch ready ▸ place), frame, cmd8, cmd58, block, one⟩

/-! ## Every next state -/

/-- The opcode of a stored frame is that of its command. -/
theorem frameInstr_opcode {op : Byte} {arg : Argument} {trailer : Byte} (command : frameInstr op arg trailer = some i) :
    op = i.opcode := by
  obtain h | h | h | h | h | h | h := frameInstr_cases command <;> rw [h.1, h.2] <;> rfl

theorem frameInstr_eq_cmd17 {op : Byte} {arg a : Argument} {trailer r : Byte}
    (command : frameInstr op arg trailer = some (.cmd17 a r)) : op = 0x51 ∧ a = arg := by
  obtain rfl : op = opCmd17 := frameInstr_opcode command
  cases command
  exact ⟨rfl, rfl⟩

/-- A read in `Ready` runs the command of the stored frame. A reply that is over leaves its own cursor at rest, and the
other two were; one that goes on moves its own cursor within its bounds, and the first read of a CMD17 stages the block
that its cursor clause speaks of. -/
theorem ExecStep.protocolInv (run : ExecStep i s t) (ready : s.state = .ready)
    (stored : frameInstr s.storedOpcode s.storedArgument s.storedTrailer = some i) (inv : s.ProtocolInv) :
    t.ProtocolInv := by
  have cmd8 := inv.cmd8_rest_of_frame stored
  have cmd58 := inv.cmd58_rest_of_frame stored
  have block := inv.block_rest_of_frame stored
  cases run with
  | filler => exact nomatch frameInstr_cases stored
  | blockOut => exact inv
  | cmd0 | cmd16 | cmd55 | acmd41 =>
    exact protocolInv_of_idle rfl rfl ((replyActive_eq_false_iff _).2 ⟨cmd8 nofun, cmd58 nofun, block nofun⟩)
  | cmd8Last => exact protocolInv_of_idle rfl rfl ((replyActive_eq_false_iff _).2 ⟨rfl, cmd58 nofun, block nofun⟩)
  | cmd58Last => exact protocolInv_of_idle rfl rfl ((replyActive_eq_false_iff _).2 ⟨cmd8 nofun, rfl, block nofun⟩)
  | blockLast => exact protocolInv_of_idle rfl rfl ((replyActive_eq_false_iff _).2 ⟨cmd8 nofun, cmd58 nofun, rfl⟩)
  | cmd8Mid _ _ _ lt =>
    exact protocolInv_of_ready ready inv.readyFrame ⟨by simp; omega, fun _ => ⟨ready, frameInstr_opcode stored⟩⟩
      inv.cmd58Cursor inv.blockCursor ⟨.inr (cmd58 nofun), .inr (block nofun), .inl (cmd58 nofun)⟩
  | cmd58Mid _ _ _ lt =>
    exact protocolInv_of_ready ready inv.readyFrame inv.cmd8Cursor
      ⟨by simp; omega, fun _ => ⟨ready, frameInstr_opcode stored⟩⟩ inv.blockCursor
      ⟨.inl (cmd8 nofun), .inl (cmd8 nofun), .inr (block nofun)⟩
  | blockMid _ _ _ k at_ lt =>
    obtain ⟨-, -, opcode, inStore, token, data⟩ := inv.blockCursor (by simp [at_])
    have cursor : ((k.val + 1 : Nat) : Int) ≤ 511 := by omega
    exact protocolInv_of_ready ready inv.readyFrame inv.cmd8Cursor inv.cmd58Cursor
      (fun _ => ⟨cursor, ready, opcode, inStore, token, data⟩)
      ⟨.inl (cmd8 nofun), .inl (cmd8 nofun), .inl (cmd58 nofun)⟩
  | blockFirst _ _ _ _ inStore =>
    obtain ⟨opcode, rfl⟩ := frameInstr_eq_cmd17 stored
    rw [s.serving_eq]
    exact protocolInv_of_ready ready inv.readyFrame inv.cmd8Cursor inv.cmd58Cursor
      (fun _ => ⟨show (0 : Int) ≤ 511 by decide, ready, opcode, inStore, stagedBlock_zero _ _, stagedBlock_one_add _ _⟩)
      ⟨.inl (cmd8 nofun), .inl (cmd8 nofun), .inl (cmd58 nofun)⟩

theorem ne_idle_of_isReceiving {c : CardState} (recv : c.isReceiving = true) : c ≠ .idle := by
  rintro rfl
  exact nomatch recv

theorem ne_ready_of_isReceiving {c : CardState} (recv : c.isReceiving = true) : c ≠ .ready := by
  rintro rfl
  exact nomatch recv

/-- The first byte of the buffer of an appended frame is as before. -/
theorem State.appendByte_storedOpcode {v : Byte} (room : s.commandLength.val + 1 < 32) (pos : 1 ≤ s.commandLength.val) :
    (s.appendByte v room).storedOpcode = s.storedOpcode :=
  Vector.getElem_set_ne s.commandLength.isLt _ (show s.commandLength.val ≠ 0 by omega)

theorem State.beginFrame_storedOpcode (s : State) (v : Byte) (c : CardState) :
    (s.beginFrame v c).storedOpcode = v := Vector.getElem_set_self (by decide)

theorem RegisterStep.protocolInv (run : RegisterStep op s t) (inv : s.ProtocolInv) : t.ProtocolInv := by
  cases run with
  | begin v _ _ c recv quiet =>
    have receiving := recvState_isReceiving recv
    refine protocolInv_of_quiet quiet (fun place => ?_) (fun _ => ⟨Nat.le_refl 1, show 1 ≤ 6 by decide, ?_⟩)
      fun place => ?_
    · exact absurd place (ne_idle_of_isReceiving receiving)
    · exact (congrArg recvState (s.beginFrame_storedOpcode v c)).trans recv
    · exact absurd place (ne_ready_of_isReceiving receiving)
  | append v _ recv lt =>
    obtain ⟨pos, -, opcode, quiet⟩ := inv.receivingFrame recv
    refine protocolInv_of_quiet quiet (fun place => ?_) (fun _ => ⟨Nat.succ_pos _, lt, ?_⟩) fun place => ?_
    · exact absurd place (ne_idle_of_isReceiving recv)
    · exact (congrArg recvState (State.appendByte_storedOpcode (by omega) pos)).trans opcode
    · exact absurd place (ne_ready_of_isReceiving recv)
  | turnaround _ ne le =>
    have quiet := inv.quiet_of_ne_ready ne
    obtain ⟨-, le', opcode, -⟩ := inv.receivingFrame (inv.receiving_of_full ne le)
    exact protocolInv_of_quiet quiet nofun nofun fun _ => ⟨Nat.le_antisymm le' le, recvState_mem opcode⟩
  | dispatch _ _ ready i stored run => exact run.protocolInv ready stored inv
  | _ => exact inv

/-- An operation on the registers of a block in service keeps the whole invariant. -/
theorem RegisterStep.inv (run : RegisterStep op s t) (running : s.lifecycle = .running) (inv : s.Inv) : t.Inv := by
  have place : t.lifecycle = .running := run.lifecycle_eq.trans running
  have ⟨_, _, canonical⟩ := inv
  refine ⟨fun _ => run.protocolInv (inv.protocolInv running), fun constructed => ?_, ?_⟩
  · exact nomatch place.symm.trans constructed
  · rw [run.backingStore_eq]
    exact canonical

/-- The operations of the platform keep the invariant: `Construct` sets the block to rest, and an accepted image finds
it there. -/
theorem PerformStep.inv (run : PerformStep op s t) (inv : s.Inv) : t.Inv := by
  cases run with
  | register running run => exact run.inv running inv
  | store _ _ running _ run => exact run.inv running inv
  | load _ running _ run => exact run.inv running inv
  | construct => exact ⟨fun _ => protocolInv_of_idle rfl rfl rfl, fun _ => rfl, inv.2.2⟩
  | @loaded _ bytes constructed size =>
    obtain ⟨protocol, idle, canonical⟩ := inv
    have place := idle constructed
    obtain ⟨empty, quiet⟩ := (protocol (by simp [constructed])).idleAtRest place
    exact ⟨fun _ => protocolInv_of_idle place empty quiet, nofun,
      Memory.wf_load canonical (by rw [Nat.zero_add]; exact Nat.le_of_eq size)⟩
  | badSize | missing => exact inv

end

/-- Settles O40: a step changes nothing, or performs an operation on the state with that operation taken from the queue,
of which no clause speaks. -/
theorem stepKeepsTheInvariant : Obligations.StepKeepsTheInvariant := by
  intro s t inv stepped
  obtain ⟨-, ⟨-, rfl⟩ | ⟨op, rest, -, run⟩⟩ := step_next stepped
  · exact inv
  · exact run.inv inv

/-- Settles O41: the reset state is in `Idle` with every cursor at rest, and its list of differences is empty. -/
theorem resetMeetsTheInvariant : Obligations.ResetMeetsTheInvariant :=
  ⟨fun _ => protocolInv_of_idle rfl rfl rfl, nofun, rfl⟩

/-- Settles O38: (I-a) fixes the length and the cursors of a block in `Idle`, and the rest of the state is left free. -/
theorem idleIsAQuiescentPoint : Obligations.IdleIsAQuiescentPoint := by
  intro s inv ⟨running, idle, healthy⟩
  obtain ⟨empty, quiet⟩ := (inv.protocolInv running).idleAtRest idle
  obtain ⟨cmd8, cmd58, block⟩ := (replyActive_eq_false_iff s).1 quiet
  cases s
  subst idle empty cmd8 cmd58 block running healthy
  rfl

end Sys2Proof.Machine
end

section
/-! PROOF. What follows from the invariant (10_state.md section 4): every register operation answers, no reply is read
past its end, and fatals, overlaps and moves between the states are exactly those the spec lists. -/

namespace Sys2Proof.Machine

open Literals

section
variable {s t : State} {op : HostOp} {rest : List HostOp} {f : Fatal}

/-! ## Answers -/

theorem txWrite_answers (v : Byte) (s : State) : ∃ t, txWrite v s = .next t := by
  cases place : s.state.isReceiving with
  | true =>
    obtain lt | le := Nat.lt_or_ge s.commandLength.val 6
    · exact ⟨_, txWrite_append place lt⟩
    · exact ⟨_, txWrite_overrun place le⟩
  | false =>
    by_cases isFiller : v = filler
    · exact ⟨_, isFiller ▸ txWrite_filler place⟩
    by_cases mem : v ∈ opcodes
    · cases active : s.replyActive with
      | true => exact ⟨_, txWrite_overlap place mem active⟩
      | false =>
        obtain ⟨c, recv⟩ := exists_recvState mem
        exact ⟨_, txWrite_begin place recv active⟩
    · exact ⟨_, txWrite_unknown place isFiller mem⟩

theorem execCmd17_answers (arg : Argument) (trailer : Byte)
    (served : s.blockReadIndex ≠ none → s.blockReadCursor ≤ 511) : ∃ t, execCmd17 arg trailer s = .next t := by
  cases at_ : s.blockReadIndex with
  | none =>
    obtain outside | inStore := Nat.lt_or_ge 8191 arg.toNat
    · exact ⟨_, execCmd17_outside at_ outside⟩
    · exact ⟨_, execCmd17_first at_ inStore⟩
  | some k =>
    have le : (k.val : Int) ≤ 511 := by simpa [State.blockReadCursor, at_] using served
    obtain lt | last : k.val + 1 < 512 ∨ k.val + 1 = 512 := by omega
    · exact ⟨_, execCmd17_mid at_ lt⟩
    · exact ⟨_, execCmd17_last at_ last⟩

/-- With the cursors within their bounds every instruction answers. -/
theorem exec_answers (inv : s.ProtocolInv) (i : Instr) : ∃ t, exec i s = .next t := by
  cases i with
  | cmd8 => exact fiveByteRead_answers _ _ s (Nat.lt_succ_of_le inv.cmd8Cursor.1)
  | cmd58 => exact fiveByteRead_answers _ _ s (Nat.lt_succ_of_le inv.cmd58Cursor.1)
  | cmd17 arg trailer => exact execCmd17_answers arg trailer fun served => (inv.blockCursor served).1
  | _ => exact ⟨_, rfl⟩

theorem rxRead_answers (inv : s.ProtocolInv) : ∃ t, rxRead s = .next t := by
  by_cases ready : s.state = .ready
  · obtain ⟨i, stored⟩ := exists_frameInstr s.storedArgument s.storedTrailer (inv.readyFrame ready).2
    obtain ⟨t, answered⟩ := exec_answers inv i
    exact ⟨t, (rxRead_dispatch ready stored).trans answered⟩
  · unfold rxRead rxFiller
    exact ⟨_, if_neg ready⟩

theorem registerOp_answers (inv : s.ProtocolInv) (reg : op.onRegisters = true) : ∃ t, registerOp op s = .next t := by
  cases op with
  | txWrite v => exact txWrite_answers v s
  | rxRead => exact rxRead_answers inv
  | otherWrite | otherRead => exact ⟨_, rfl⟩
  | store | load | construct | deviceReset => exact nomatch reg

/-- The step of an operation on the registers answers a next state of the relation. -/
theorem step_register_answers (inv : s.Inv) (next : s.Next op rest) (reg : op.onRegisters = true) :
    ∃ t, step s = .next t ∧ RegisterStep op (s.withPending rest) t := by
  obtain ⟨t, answered⟩ := registerOp_answers (s := s.withPending rest) (inv.protocolInv next.2.1) reg
  exact ⟨t, (step_register next reg).trans answered, registerOp_next answered⟩

theorem frameInstr_ne_idle {op : Byte} {arg : Argument} {trailer : Byte} {i : Instr}
    (command : frameInstr op arg trailer = some i) : i ≠ .idle := by
  rintro rfl
  exact nomatch frameInstr_cases command

/-- A command delivers a byte, or the fatal that it latches. -/
theorem ExecStep.result {i : Instr} (run : ExecStep i s t) (command : i ≠ .idle) :
    (∃ b, t.delivered = .byte b :: s.delivered ∧ t.fault = s.fault) ∨
      ∃ f, t.delivered = .fatal f :: s.delivered ∧ t.fault = some f := by
  cases run with
  | filler => exact absurd rfl command
  | blockOut => exact .inr ⟨_, rfl, rfl⟩
  | blockFirst => rw [s.serving_eq]; exact .inl ⟨_, s.serving_delivered _, s.serving_fault _⟩
  | _ => exact .inl ⟨_, rfl, rfl⟩

/-- A register operation delivers one result: a fatal, or a byte for a read and its completion for a write. -/
theorem RegisterStep.result (run : RegisterStep op s t) (healthy : s.fault = none) :
    ∃ r, t.delivered = r :: s.delivered ∧
      ((t.fault = none ∧ (r = .done ∨ ∃ b, r = .byte b) ∧
          ((∃ b, r = .byte b) ↔ op = .rxRead ∨ ∃ o, op = .otherRead o)) ∨
        ∃ f, t.fault = some f ∧ r = .fatal f) := by
  cases run with
  | filler | begin | append | otherWrite => exact ⟨_, rfl, .inl ⟨healthy, .inl rfl, by simp⟩⟩
  | wait | turnaround | otherRead => exact ⟨_, rfl, .inl ⟨healthy, .inr ⟨_, rfl⟩, by simp⟩⟩
  | overlap | unknown | overrun | unknownDispatch => exact ⟨_, rfl, .inr ⟨_, rfl, rfl⟩⟩
  | dispatch _ _ _ i stored run =>
    obtain ⟨b, newest, healthy'⟩ | ⟨f, newest, latched⟩ := run.result (frameInstr_ne_idle stored)
    · exact ⟨_, newest, .inl ⟨healthy'.trans healthy, .inr ⟨b, rfl⟩, by simp⟩⟩
    · exact ⟨_, newest, .inr ⟨f, latched, rfl⟩⟩

/-! ## Faults -/

/-- A load or store in the window is an operation on the registers. -/
theorem routeStore_onRegisters (offset data : Nat) : (routeStore offset data).onRegisters = true := by
  unfold routeStore
  split <;> rfl

theorem routeLoad_onRegisters (offset : Nat) : (routeLoad offset).onRegisters = true := by
  unfold routeLoad
  split <;> rfl

theorem registerOp_ne_fault (inv : s.ProtocolInv) (reg : op.onRegisters = true) (r : Fault) :
    registerOp op s ≠ .fault r := by
  obtain ⟨t, answered⟩ := registerOp_answers inv reg
  rw [answered]
  nofun

theorem whenRunning_ne_fault {o : Outcome} {r : Fault} (running : s.lifecycle = .running → o ≠ .fault r) :
    whenRunning s o ≠ .fault r := by
  unfold whenRunning
  split
  · exact running ‹_›
  · nofun

theorem storeAccess_ne_fault (inv : s.ProtocolInv) (address data : Nat) (r : Fault) :
    storeAccess address data s ≠ .fault r := by
  unfold storeAccess
  split
  · nofun
  · exact registerOp_ne_fault inv (routeStore_onRegisters _ _) r

theorem loadAccess_ne_fault (inv : s.ProtocolInv) (address bytes : Nat) (r : Fault) :
    loadAccess address bytes s ≠ .fault r := by
  unfold loadAccess
  split
  · nofun
  · obtain ⟨t, answered⟩ := registerOp_answers inv (routeLoad_onRegisters _)
    rw [answered]
    nofun

theorem deviceReset_ne_fault (image : Option (List Byte)) (s : State) (r : Fault) : deviceReset image s ≠ .fault r := by
  unfold deviceReset
  split
  · nofun
  · split <;> nofun

/-- From a state that meets the invariant no operation stops with a fault of the machine. -/
theorem perform_ne_fault (inv : s.Inv) (op : HostOp) (r : Fault) : perform op s ≠ .fault r := by
  unfold perform
  split
  · nofun
  · cases op with
    | txWrite v =>
      exact whenRunning_ne_fault fun running => registerOp_ne_fault (op := .txWrite v) (inv.protocolInv running) rfl r
    | rxRead =>
      exact whenRunning_ne_fault fun running => registerOp_ne_fault (op := .rxRead) (inv.protocolInv running) rfl r
    | otherWrite | otherRead => exact whenRunning_ne_fault fun _ => nofun
    | store => exact whenRunning_ne_fault fun running => storeAccess_ne_fault (inv.protocolInv running) _ _ r
    | load => exact whenRunning_ne_fault fun running => loadAccess_ne_fault (inv.protocolInv running) _ _ r
    | construct => simp only; split <;> nofun
    | deviceReset image =>
      simp only
      split
      · exact deviceReset_ne_fault image s r
      · nofun

/-! ## Fatals -/

/-- The causes that other checks shadow: a full buffer is never reached, and in `Ready` an opcode is stored. -/
theorem RegisterStep.cause_ne (run : RegisterStep op s t) (inv : s.ProtocolInv) (healthy : s.fault = none)
    (latched : t.fault = some f) : f.cause ≠ .bufferOverflow ∧ f.cause ≠ .unknownDispatch := by
  obtain ⟨-, noOverflow, unknown⟩ := run.eq_faulted healthy latched
  refine ⟨noOverflow, fun cause => ?_⟩
  obtain ⟨ready, unlisted⟩ := unknown cause
  exact unlisted (inv.readyFrame ready).2

theorem PerformStep.cause_ne (run : PerformStep op s t) (inv : s.Inv) (healthy : s.fault = none)
    (latched : t.fault = some f) : f.cause ≠ .bufferOverflow ∧ f.cause ≠ .unknownDispatch := by
  cases run with
  | register running run => exact run.cause_ne (inv.protocolInv running) healthy latched
  | store _ _ running _ run => exact run.cause_ne (inv.protocolInv running) healthy latched
  | load _ running _ run => exact run.cause_ne (inv.protocolInv running) healthy latched
  | construct => exact nomatch latched
  | loaded => exact nomatch healthy.symm.trans latched
  | badSize | missing => cases latched; exact ⟨nofun, nofun⟩

/-- A reply is partly served exactly in the cases of R91. -/
theorem replyActive_iff_partly_served (inv : s.ProtocolInv) : s.replyActive = true ↔
    s.state = .ready ∧
      ((s.storedOpcode = 0x48 ∧ 1 ≤ s.cmd8ReplyIndex.val ∧ s.cmd8ReplyIndex.val ≤ 4) ∨
        (s.storedOpcode = 0x7A ∧ 1 ≤ s.cmd58ReplyIndex.val ∧ s.cmd58ReplyIndex.val ≤ 4) ∨
        (s.storedOpcode = 0x51 ∧ 0 ≤ s.blockReadCursor ∧ s.blockReadCursor ≤ 511)) := by
  have active : s.replyActive = true ↔ s.cmd8ReplyIndex ≠ 0 ∨ s.cmd58ReplyIndex ≠ 0 ∨ s.blockReadIndex ≠ none := by
    simp [State.replyActive, or_assoc]
  have moved (k : Fin 6) : k ≠ 0 ↔ 1 ≤ k.val := by rw [Ne, Fin.ext_iff]; exact Nat.one_le_iff_ne_zero.symm
  have serving : s.blockReadIndex ≠ none ↔ 0 ≤ s.blockReadCursor := by
    unfold State.blockReadCursor
    cases s.blockReadIndex <;> simp
  rw [active]
  constructor
  · rintro (cmd8 | cmd58 | block)
    · obtain ⟨le, place⟩ := inv.cmd8Cursor
      exact ⟨(place cmd8).1, .inl ⟨(place cmd8).2, (moved _).1 cmd8, le⟩⟩
    · obtain ⟨le, place⟩ := inv.cmd58Cursor
      exact ⟨(place cmd58).1, .inr (.inl ⟨(place cmd58).2, (moved _).1 cmd58, le⟩)⟩
    · obtain ⟨le, ready, opcode, -⟩ := inv.blockCursor block
      exact ⟨ready, .inr (.inr ⟨opcode, serving.1 block, le⟩)⟩
  · rintro ⟨-, ⟨-, pos, -⟩ | ⟨-, pos, -⟩ | ⟨-, pos, -⟩⟩
    · exact .inl ((moved _).2 pos)
    · exact .inr (.inl ((moved _).2 pos))
    · exact .inr (.inr (serving.2 pos))

/-- An opcode is `ReplyOverlap` exactly outside a frame with a reply partly served. -/
theorem step_eq_overlap_iff {v : Byte} (next : s.Next (.txWrite v) rest) (mem : v ∈ opcodes) :
    step s = .next (s.afterFatal rest ⟨.replyOverlap, .byte v⟩) ↔
      s.state.isReceiving = false ∧ s.replyActive = true := by
  refine ⟨fun stepped => ?_, fun ⟨open_, active⟩ => step_overlap next open_ mem active⟩
  have latched (u : State) (other : step s = .next u) : u.fault = some ⟨.replyOverlap, .byte v⟩ :=
    congrArg State.fault (Host.Outcome.next.inj (other.symm.trans stepped))
  cases place : s.state.isReceiving with
  | true =>
    obtain lt | le := Nat.lt_or_ge s.commandLength.val 6
    · have taken := latched _ (step_append next place lt)
      exact nomatch next.1.symm.trans taken
    · exact nomatch latched _ (step_overrun next place le)
  | false =>
    refine ⟨rfl, ?_⟩
    by_contra quiet
    obtain ⟨c, recv⟩ := exists_recvState mem
    have taken := latched _ (step_begin next place recv (by simpa using quiet))
    exact nomatch next.1.symm.trans taken

/-- A command raises a fatal exactly by its range check. -/
theorem ExecStep.fault_eq_none_iff {i : Instr} (run : ExecStep i s t) (healthy : s.fault = none) :
    t.fault = none ↔ ¬ ∃ a r, i = .cmd17 a r ∧ s.blockReadIndex = none ∧ 8191 < a.toNat := by
  cases run with
  | blockOut a r _ atRest outside => exact ⟨nofun, fun inRange => absurd ⟨a, r, rfl, atRest, outside⟩ inRange⟩
  | blockFirst a r _ _ inStore =>
    rw [s.serving_eq, s.serving_fault]
    refine iff_of_true healthy ?_
    rintro ⟨_, _, ⟨⟩, -, outside⟩
    exact absurd inStore (Nat.not_le.2 outside)
  | blockMid _ _ _ k at_ | blockLast _ _ _ k at_ =>
    refine iff_of_true healthy ?_
    rintro ⟨_, _, -, atRest, -⟩
    exact nomatch at_.symm.trans atRest
  | _ => exact iff_of_true healthy nofun

/-- A read breaks the conduct only as the first read of a CMD17 out of range (R203). -/
theorem permitted_rxRead_iff (s : State) : Permitted s .rxRead = true ↔
    ¬ (s.state = .ready ∧ s.storedOpcode = 0x51 ∧ s.blockReadIndex = none ∧ 8191 < s.storedArgument.toNat) := by
  simp only [Permitted, Bool.or_eq_true, decide_eq_true_eq, not_and_or, Nat.not_lt, Ne, or_assoc]

theorem permitted_txWrite_iff (s : State) (v : Byte) : Permitted s (.txWrite v) = true ↔
    if s.state.isReceiving then s.commandLength.val < 6
    else v = filler ∨ v ∈ opcodes ∧ s.replyActive = false := by
  simp only [Permitted]
  split
  · exact decide_eq_true_iff
  · rw [Bool.or_eq_true, Bool.and_eq_true, decide_eq_true_iff, decide_eq_true_iff, Bool.not_eq_true']
    rfl

/-- Case by case, an operation on the registers latches a fatal exactly when it breaks the conduct. -/
theorem RegisterStep.fault_eq_none_iff (run : RegisterStep op s t) (inv : s.ProtocolInv) (healthy : s.fault = none) :
    t.fault = none ↔ Permitted s op = true := by
  cases run with
  | filler _ open_ => exact iff_of_true healthy ((permitted_txWrite_iff s _).2 (by simp [open_]))
  | begin _ _ open_ c recv quiet =>
    exact iff_of_true healthy ((permitted_txWrite_iff s _).2 (by simp [open_, recvState_mem recv, quiet]))
  | overlap v _ open_ mem active =>
    exact iff_of_false nofun ((permitted_txWrite_iff s v).not.2 (by simp [open_, active, ne_filler_of_mem mem]))
  | unknown v _ open_ ne mem =>
    exact iff_of_false nofun ((permitted_txWrite_iff s v).not.2 (by simp [open_, mem, ne]))
  | append _ _ recv lt => exact iff_of_true healthy ((permitted_txWrite_iff s _).2 (by simp [recv, lt]))
  | overrun _ _ recv le => exact iff_of_false nofun ((permitted_txWrite_iff s _).not.2 (by simp [recv, le]))
  | wait _ ne | turnaround _ ne => exact iff_of_true healthy ((permitted_rxRead_iff s).2 fun broken => ne broken.1)
  | dispatch _ _ ready i stored run =>
    rw [permitted_rxRead_iff, run.fault_eq_none_iff healthy, not_iff_not]
    constructor
    · rintro ⟨a, r, rfl, atRest, outside⟩
      obtain ⟨opcode, rfl⟩ := frameInstr_eq_cmd17 stored
      exact ⟨ready, opcode, atRest, outside⟩
    · rintro ⟨-, opcode, atRest, outside⟩
      rw [opcode] at stored
      exact ⟨_, _, (Option.some.inj stored).symm, atRest, outside⟩
  | unknownDispatch _ ready mem => exact absurd (inv.readyFrame ready).2 mem
  | otherWrite | otherRead => exact iff_of_true healthy rfl

end

/-! ## The statements -/

/-- Settles O11: the operation answers, with one result of the kind the relation gives. -/
theorem everyRegisterOperationAnswers : Obligations.EveryRegisterOperationAnswers := by
  intro s op rest inv next reg
  obtain ⟨t, stepped, run⟩ := step_register_answers inv next reg
  obtain ⟨r, newest, kind⟩ := run.result next.1
  exact ⟨t, r, stepped, run.pending_eq, newest, kind⟩

/-- Settles O23: a step of a latched block stops with `halted`, and any other performs an operation or changes
nothing. -/
theorem noReplyIsReadPastItsEnd : Obligations.NoReplyIsReadPastItsEnd := by
  intro s inv
  unfold step
  split
  · nofun
  · split
    · nofun
    · rename_i op rest _
      exact perform_ne_fault (s := s.withPending rest) inv op _

/-- Settles O18: the step that latches a fatal performed an operation, and none raises either cause. -/
theorem shadowedCausesNeverOccur : Obligations.ShadowedCausesNeverOccur := by
  intro s t f inv stepped latched
  obtain ⟨healthy, ⟨-, rfl⟩ | ⟨op, rest, -, run⟩⟩ := step_next stepped
  · exact nomatch healthy.symm.trans latched
  · exact run.cause_ne (s := s.withPending rest) inv healthy latched

/-- Settles O15: the overlap is that of a block outside a frame with a reply partly served, and by the invariant a reply
is partly served in `Ready` only. -/
theorem overlapCasesAreExactlyThePartlyServedReplies : Obligations.OverlapCasesAreExactlyThePartlyServedReplies := by
  intro s rest v inv next mem
  rw [step_eq_overlap_iff next mem, ← replyActive_iff_partly_served (inv.protocolInv next.2.1)]
  refine and_iff_right_of_imp fun active => (isReceiving_eq_false_iff _).2 (.inr ?_)
  exact ((replyActive_iff_partly_served (inv.protocolInv next.2.1)).1 active).1

/-- Settles O39: the operation answers, and the conduct is decided case by case. -/
theorem conductDecidesFatals : Obligations.ConductDecidesFatals := by
  intro s op rest inv next reg
  obtain ⟨t, stepped, run⟩ := step_register_answers inv next reg
  exact ⟨t, stepped, run.fault_eq_none_iff (inv.protocolInv next.2.1) next.1⟩

/-- Settles O37: the four ways in which an operation leaves `state` different, of which the invariant says where they
start and what is left behind. -/
theorem waysBetweenTheStates : Obligations.WaysBetweenTheStates := by
  intro s t op rest inv next reg stepped
  have run := registerOp_next ((step_register next reg).symm.trans stepped)
  have before := inv.protocolInv next.2.1
  have after := (stepKeepsTheInvariant s t inv stepped).protocolInv (run.lifecycle_eq.trans next.2.1)
  refine ⟨fun ready ne => ?intoReady, fun idle ne => ?intoIdle, fun recv ne => ?outOfReceiving, fun faulted => ?fatal⟩
  case intoReady =>
    obtain same | ⟨-, recv⟩ | ⟨read, -, le, -⟩ | ⟨-, -, idle, -⟩ := run.state_eq_or
    · exact absurd (same.symm.trans ready) ne
    · exact absurd ready (ne_ready_of_isReceiving recv)
    · have recv := before.receiving_of_full ne le
      exact ⟨read, recv, Nat.le_antisymm (before.receivingFrame recv).2.1 le⟩
    · exact nomatch idle.symm.trans ready
  case intoIdle =>
    obtain same | ⟨-, recv⟩ | ⟨-, -, -, ready⟩ | ⟨read, ready, -, byte⟩ := run.state_eq_or
    · exact absurd (same.symm.trans idle) ne
    · exact absurd idle (ne_idle_of_isReceiving recv)
    · exact nomatch ready.symm.trans idle
    · obtain ⟨empty, quiet⟩ := after.idleAtRest idle
      exact ⟨read, ready, empty, quiet, byte⟩
  case outOfReceiving =>
    obtain same | ⟨open_, -⟩ | ⟨read, -, -, ready⟩ | ⟨-, ready, -⟩ := run.state_eq_or
    · exact absurd same ne
    · exact nomatch recv.symm.trans open_
    · exact ⟨read, ready⟩
    · exact absurd ready (ne_ready_of_isReceiving recv)
  case fatal =>
    obtain ⟨f, latched⟩ := Option.ne_none_iff_exists'.1 faulted
    rw [(run.eq_faulted next.1 latched).1]
    rfl

end Sys2Proof.Machine
end

section
/-! PROOF. The replies of several bytes (41_reply_dispatch.md R118, R119; 42_block_read.md R140 to R147): what each read
answers, by the place of its cursor. -/

namespace Sys2Proof.Machine

open Literals

/-- A read that is or is not the last of its reply, written as one update. -/
theorem State.resetToIdle_if {u : State} (ready : u.state = .ready) (last : Prop) [Decidable last] :
    (if last then u.resetToIdle else u) = { u with
      state := if last then .idle else .ready
      commandLength := if last then 0 else u.commandLength } := by
  split
  · rfl
  · rw [← ready]

/-- A five-byte read with its cursor at `k` returns byte `k`; the cursor advances, or is back at 0 with the block reset
to `Idle` (R118, R119). -/
theorem fiveByteRead_serve {c : Fin 6} {k : Fin 5} {s : State} (table : Vector Byte 5) (set : State → Fin 6 → State)
    (at_ : c.val = k.val) (ready : ∀ c', (set s c').state = .ready) : ∃ c' : Fin 6, c'.val = (k.val + 1) % 5 ∧
      fiveByteRead table c set s = .next (({ set s c' with
        state := if k.val = 4 then .idle else .ready
        commandLength := if k.val = 4 then 0 else (set s c').commandLength } : State).deliver (.byte table[k])) := by
  by_cases last : k.val = 4
  · obtain rfl : k = 4 := Fin.ext last
    exact ⟨0, rfl, fiveByteRead_last table set at_⟩
  · refine ⟨⟨k.val + 1, by omega⟩, show k.val + 1 = (k.val + 1) % 5 by omega, ?_⟩
    rw [← State.resetToIdle_if (ready _), if_neg last, fiveByteRead_mid table set (by omega)]
    simp only [at_]
    rfl

theorem cmd8Reply_getElem : ∀ k : Fin 5, cmd8Reply[k] = ([0x01, 0x00, 0x00, 0x01, 0xAA] : List Byte)[k] := by decide

theorem cmd58Reply_getElem : ∀ k : Fin 5, cmd58Reply[k] = ([0x00, 0xC0, 0xFF, 0x80, 0x00] : List Byte)[k] := by decide

/-- Settles O22: each command is a five-byte read of its own table and cursor. -/
theorem fiveByteRepliesFollowTheirCursor : Obligations.FiveByteRepliesFollowTheirCursor := by
  intro s arg trailer ready
  refine ⟨fun k at_ => ?cmd8, fun k at_ => ?cmd58⟩
  case cmd8 =>
    obtain ⟨c, moved, served⟩ := fiveByteRead_serve cmd8Reply State.setCmd8Index at_ fun _ => ready
    exact ⟨_, served, by rw [← cmd8Reply_getElem]; rfl, moved, rfl⟩
  case cmd58 =>
    obtain ⟨c, moved, served⟩ := fiveByteRead_serve cmd58Reply State.setCmd58Index at_ fun _ => ready
    exact ⟨_, served, by rw [← cmd58Reply_getElem]; rfl, moved, rfl⟩

/-- The first read of a CMD17 in range, its staged block as one value. -/
theorem execCmd17_serving {s : State} {arg : Argument} (trailer : Byte) (atRest : s.blockReadIndex = none)
    (inStore : arg.toNat ≤ 8191) :
    execCmd17 arg trailer s = .next (s.serving (stagedBlock s.backingStore arg.toNat)) := by
  rw [execCmd17_first atRest inStore, s.serving_eq]

theorem State.serving_eq_after (s : State) (block : Vector Byte Config.stagingBytes) :
    s.serving block = { s.after s.pending (.byte 0xFE) with
      staging := block, blockReadIndex := some 0, latencyCalls := 30 :: s.latencyCalls } := rfl

/-- Settles O24: the first read stages and starts, each later one serves the byte after the cursor. -/
theorem blockReadCompletes : Obligations.BlockReadCompletes := by
  intro s arg trailer ready
  refine ⟨fun atRest inStore => ?first, fun k serving => ?later⟩
  case first =>
    exact ⟨_, execCmd17_serving trailer atRest inStore, stagedBlock_zero _ _, stagedBlock_one_add _ _,
      s.serving_eq_after _⟩
  case later => exact ⟨_, execCmd17_serve arg trailer ready serving, rfl, rfl⟩

/-- Settles O26: the staged bytes are the block's by the invariant, and the read serves the one after the cursor. -/
theorem servedBytesAreTheBlock : Obligations.ServedBytesAreTheBlock := by
  intro s op rest k inv next ready opcode serving
  refine ⟨fun inert => ?between, ?read⟩
  case between =>
    obtain rfl | ⟨o, v, rfl⟩ | ⟨o, rfl⟩ := inert
    · exact ⟨_, step_filler next ((isReceiving_eq_false_iff _).2 (.inr ready))⟩
    · exact ⟨_, step_otherWrite next⟩
    · exact ⟨_, step_otherRead next⟩
  case read =>
    rintro rfl
    obtain ⟨-, -, -, -, -, data⟩ := (inv.protocolInv next.2.1).blockCursor (by simp [serving])
    have served := execCmd17_serve (s := s.withPending rest) s.storedArgument s.storedTrailer ready serving
    refine ⟨_, (step_rxRead_cmd17 next ready opcode).trans served, congrArg (HostResult.byte · :: s.delivered) (data k),
      rfl, rfl, fun lt => ?more, fun last => ?last⟩
    case more =>
      simp only [State.blockReadCursor, if_neg (Nat.ne_of_lt lt)]
      exact ⟨by simp, trivial⟩
    case last =>
      simp only [State.blockReadCursor, if_pos last, true_and]
      intro more queued
      exact step_rxRead_wait ⟨next.1, next.2.1, queued⟩ (by simp) (by simp)

end Sys2Proof.Machine
end

section
/-! PROOF. Bytes that no rule reads (10_state.md R22, R27): a state is run beside the same state with other dead bytes,
and each operation answers both alike, by the law that answers the one. -/

namespace Sys2Proof.Machine

open Literals

/-- `s` with other contents of its two buffers. -/
def State.withBuffers (s : State) (command : Vector Byte Config.cmdBufBytes)
    (staged : Vector Byte Config.stagingBytes) : State :=
  { s with commandBuffer := command, staging := staged }

/-- The contents agree with those of `s` in every byte that a rule can read. -/
def State.LiveIn (s : State) (command : Vector Byte Config.cmdBufBytes) (staged : Vector Byte Config.stagingBytes) :
    Prop :=
  (∀ k : Fin 32, k.val < s.commandLength.val → s.commandBuffer[k] = command[k]) ∧
    (s.blockReadIndex ≠ none → s.staging = staged)

/-- Two outcomes that differ at most in bytes no rule reads. -/
def Alike (o p : Outcome) : Prop :=
  (∃ u v, o = .next u ∧ p = .next v ∧ SameLive u v) ∨ (∃ r, o = .fault r ∧ p = .fault r) ∨
    ∃ r, o = .refused r ∧ p = .refused r

theorem sameLive_iff (s t : State) :
    SameLive s t ↔ ∃ command staged, t = s.withBuffers command staged ∧ s.LiveIn command staged := by
  constructor
  · rintro ⟨state, length, bytes, cmd8, cmd58, block, staged, store, fault, lifecycle, pending, delivered, calls⟩
    refine ⟨t.commandBuffer, t.staging, ?_, bytes, staged⟩
    simp only [State.withBuffers, state, length, cmd8, cmd58, block, store, fault, lifecycle, pending, delivered, calls]
  · rintro ⟨command, staged, rfl, bytes, same⟩
    exact ⟨rfl, rfl, bytes, rfl, rfl, rfl, same, rfl, rfl, rfl, rfl, rfl, rfl⟩

theorem Alike.refused (r : Refusal) : Alike (.refused r) (.refused r) := .inr (.inr ⟨r, rfl, rfl⟩)

/-- An operation that both states refuse out of its place is alike if it is in its place. -/
theorem Alike.of_place {place : Prop} [Decidable place] {o p : Outcome} {r : Refusal} (alike : place → Alike o p) :
    Alike (if place then o else .refused r) (if place then p else .refused r) := by
  split
  · exact alike ‹_›
  · exact .refused r

section
variable {s : State} {command : Vector Byte Config.cmdBufBytes} {staged : Vector Byte Config.stagingBytes}

theorem Alike.next (live : s.LiveIn command staged) : Alike (.next s) (.next (s.withBuffers command staged)) :=
  .inl ⟨_, _, rfl, rfl, (sameLive_iff _ _).2 ⟨_, _, rfl, live⟩⟩

theorem Alike.widenNewest {o p : Outcome} (alike : Alike o p) (w : Nat) :
    Alike (widenNewest w o) (widenNewest w p) := by
  obtain ⟨u, v, rfl, rfl, same⟩ | ⟨r, rfl, rfl⟩ | ⟨r, rfl, rfl⟩ := alike
  · obtain ⟨command, staged, rfl, live⟩ := (sameLive_iff u v).1 same
    exact Alike.next (s := u.widened w) live
  · exact .inr (.inl ⟨r, rfl, rfl⟩)
  · exact .refused r

/-- The byte that starts a frame is its only live byte. -/
theorem State.LiveIn.beginFrame (live : s.LiveIn command staged) (v : Byte) (c : CardState) :
    (s.beginFrame v c).LiveIn (command.set 0 v) staged := by
  refine ⟨fun k lt => ?_, live.2⟩
  obtain rfl : k = 0 := Fin.ext (Nat.lt_one_iff.1 lt)
  simp

/-- The appended byte is live, and so are the ones before it. -/
theorem State.LiveIn.appendByte (live : s.LiveIn command staged) (v : Byte) (room : s.commandLength.val + 1 < 32) :
    (s.appendByte v room).LiveIn (command.set s.commandLength.val v s.commandLength.isLt) staged := by
  refine ⟨fun k lt => ?_, live.2⟩
  have le : k.val ≤ s.commandLength.val := Nat.le_of_lt_succ lt
  obtain last | before := Nat.eq_or_lt_of_le le
  · obtain rfl : k = s.commandLength := Fin.ext last
    simp
  · have ne : s.commandLength.val ≠ k.val := Nat.ne_of_gt before
    simpa [Vector.getElem_set, ne] using live.1 k before

theorem txWrite_alike (live : s.LiveIn command staged) (v : Byte) :
    Alike (txWrite v s) (txWrite v (s.withBuffers command staged)) := by
  cases place : s.state.isReceiving with
  | true =>
    obtain lt | le := Nat.lt_or_ge s.commandLength.val 6
    · rw [txWrite_append place lt, txWrite_append (s := s.withBuffers command staged) place lt]
      exact Alike.next (s := (s.appendByte v _).deliver .done) (live.appendByte v _)
    · rw [txWrite_overrun place le, txWrite_overrun (s := s.withBuffers command staged) place le]
      exact Alike.next (s := s.faulted _ _) live
  | false =>
    by_cases isFiller : v = filler
    · subst isFiller
      rw [txWrite_filler place, txWrite_filler (s := s.withBuffers command staged) place]
      exact Alike.next (s := s.deliver .done) live
    by_cases mem : v ∈ opcodes
    · cases active : s.replyActive with
      | true =>
        rw [txWrite_overlap place mem active, txWrite_overlap (s := s.withBuffers command staged) place mem active]
        exact Alike.next (s := s.faulted _ _) live
      | false =>
        obtain ⟨c, recv⟩ := exists_recvState mem
        rw [txWrite_begin place recv active, txWrite_begin (s := s.withBuffers command staged) place recv active]
        exact Alike.next (s := (s.beginFrame v c).deliver .done) (live.beginFrame v c)
    · rw [txWrite_unknown place isFiller mem, txWrite_unknown (s := s.withBuffers command staged) place isFiller mem]
      exact Alike.next (s := s.faulted _ _) live

/-- The read that ends a reply leaves no byte of the command buffer live. -/
theorem State.LiveIn.resetToIdle (live : s.LiveIn command staged) (r : HostResult) :
    (s.resetToIdle.deliver r).LiveIn command staged := ⟨fun _ lt => absurd lt (Nat.not_lt_zero _), live.2⟩

theorem fiveByteRead_alike {c : Fin 6} (table : Vector Byte 5) (set : State → Fin 6 → State) (le : c.val ≤ 4)
    (live : ∀ c', (set s c').LiveIn command staged)
    (apart : ∀ c', set (s.withBuffers command staged) c' = (set s c').withBuffers command staged) :
    Alike (fiveByteRead table c set s) (fiveByteRead table c set (s.withBuffers command staged)) := by
  obtain last | lt := Nat.eq_or_lt_of_le le
  · rw [fiveByteRead_last table set last, fiveByteRead_last table set last, apart]
    exact Alike.next (s := (set s 0).resetToIdle.deliver _) ((live 0).resetToIdle _)
  · rw [fiveByteRead_mid table set lt, fiveByteRead_mid table set lt, apart]
    exact Alike.next (s := (set s _).deliver _) (live _)

/-- The first read of a CMD17 stages the same block into both, and the later ones find the same bytes staged. -/
theorem execCmd17_alike (inv : s.ProtocolInv) (live : s.LiveIn command staged) (arg : Argument) (trailer : Byte) :
    Alike (execCmd17 arg trailer s) (execCmd17 arg trailer (s.withBuffers command staged)) := by
  cases at_ : s.blockReadIndex with
  | none =>
    obtain outside | inStore := Nat.lt_or_ge 8191 arg.toNat
    · rw [execCmd17_outside at_ outside, execCmd17_outside (s := s.withBuffers command staged) at_ outside]
      exact Alike.next (s := s.faulted _ _) live
    · rw [execCmd17_serving trailer at_ inStore,
        execCmd17_serving (s := s.withBuffers command staged) trailer at_ inStore]
      exact Alike.next (s := s.serving _) ⟨live.1, fun _ => rfl⟩
  | some k =>
    have moved : s.blockReadIndex ≠ none := by simp [at_]
    obtain rfl := live.2 moved
    have le : (k.val : Int) ≤ 511 := by simpa [State.blockReadCursor, at_] using (inv.blockCursor moved).1
    obtain lt | last : k.val + 1 < 512 ∨ k.val + 1 = 512 := by omega
    · rw [execCmd17_mid at_ lt, execCmd17_mid (s := s.withBuffers command s.staging) at_ lt]
      exact Alike.next (s := (s.setBlockIndex _).deliver _) ⟨live.1, fun _ => rfl⟩
    · rw [execCmd17_last at_ last, execCmd17_last (s := s.withBuffers command s.staging) at_ last]
      exact Alike.next (s := (s.setBlockIndex none).resetToIdle.deliver _)
        (State.LiveIn.resetToIdle (s := s.setBlockIndex none) ⟨live.1, fun _ => rfl⟩ _)

theorem exec_alike (inv : s.ProtocolInv) (live : s.LiveIn command staged) (i : Instr) :
    Alike (exec i s) (exec i (s.withBuffers command staged)) := by
  cases i with
  | idle => exact Alike.next (s := s.deliver .done) live
  | cmd0 | cmd16 | cmd55 | acmd41 => exact Alike.next (s := s.resetToIdle.deliver _) (live.resetToIdle _)
  | cmd8 => exact fiveByteRead_alike cmd8Reply State.setCmd8Index inv.cmd8Cursor.1 (fun _ => live) fun _ => rfl
  | cmd58 => exact fiveByteRead_alike cmd58Reply State.setCmd58Index inv.cmd58Cursor.1 (fun _ => live) fun _ => rfl
  | cmd17 arg trailer => exact execCmd17_alike inv live arg trailer

/-- Six live bytes are a whole frame. -/
theorem State.LiveIn.frame (live : s.LiveIn command staged) (full : s.commandLength.val = 6) :
    (s.withBuffers command staged).storedOpcode = s.storedOpcode ∧
      (s.withBuffers command staged).storedArgument = s.storedArgument ∧
      (s.withBuffers command staged).storedTrailer = s.storedTrailer := by
  have byte (k : Fin 32) (lt : k.val < 6) : command[k] = s.commandBuffer[k] := (live.1 k (by omega)).symm
  have b1 : command[1] = s.commandBuffer[1] := byte 1 (by decide)
  have b2 : command[2] = s.commandBuffer[2] := byte 2 (by decide)
  have b3 : command[3] = s.commandBuffer[3] := byte 3 (by decide)
  have b4 : command[4] = s.commandBuffer[4] := byte 4 (by decide)
  refine ⟨byte 0 (by decide), ?_, byte 5 (by decide)⟩
  simp only [State.storedArgument, State.withBuffers, b1, b2, b3, b4]

theorem rxRead_alike (inv : s.ProtocolInv) (live : s.LiveIn command staged) :
    Alike (rxRead s) (rxRead (s.withBuffers command staged)) := by
  by_cases ready : s.state = .ready
  · obtain ⟨full, mem⟩ := inv.readyFrame ready
    obtain ⟨opcode, argument, trailer⟩ := live.frame full
    obtain ⟨i, stored⟩ := exists_frameInstr s.storedArgument s.storedTrailer mem
    rw [rxRead_dispatch ready stored, rxRead_dispatch (s := s.withBuffers command staged) (i := i) ready
      (by rw [opcode, argument, trailer, stored])]
    exact exec_alike inv live i
  · obtain lt | le := Nat.lt_or_ge s.commandLength.val 6
    · rw [rxRead_wait ready lt, rxRead_wait (s := s.withBuffers command staged) ready lt]
      exact Alike.next (s := s.deliver _) live
    · rw [rxRead_turnaround ready le, rxRead_turnaround (s := s.withBuffers command staged) ready le]
      exact Alike.next (s := s.enterReady.deliver _) live

theorem registerOp_alike (inv : s.ProtocolInv) (live : s.LiveIn command staged) (op : HostOp) :
    Alike (registerOp op s) (registerOp op (s.withBuffers command staged)) := by
  cases op with
  | txWrite v => exact txWrite_alike live v
  | rxRead => exact rxRead_alike inv live
  | otherWrite => exact Alike.next (s := s.deliver .done) live
  | otherRead => exact Alike.next (s := s.deliver (.byte reservedRead)) live
  | store | load | construct | deviceReset => exact .refused _

theorem storeAccess_alike (inv : s.ProtocolInv) (live : s.LiveIn command staged) (address data : Nat) :
    Alike (storeAccess address data s) (storeAccess address data (s.withBuffers command staged)) := by
  unfold storeAccess
  split
  · exact .refused _
  · exact registerOp_alike inv live _

theorem loadAccess_alike (inv : s.ProtocolInv) (live : s.LiveIn command staged) (address bytes : Nat) :
    Alike (loadAccess address bytes s) (loadAccess address bytes (s.withBuffers command staged)) := by
  unfold loadAccess
  split
  · exact .refused _
  · exact (registerOp_alike inv live _).widenNewest _

theorem deviceReset_alike (live : s.LiveIn command staged) (image : Option (List Byte)) :
    Alike (deviceReset image s) (deviceReset image (s.withBuffers command staged)) := by
  unfold deviceReset
  split
  · exact Alike.next (s := s.faulted _ _) live
  · split
    · exact Alike.next (s := (s.accept _).deliver .done) live
    · exact Alike.next (s := s.faulted _ _) live

theorem perform_alike (inv : s.Inv) (live : s.LiveIn command staged) (op : HostOp) :
    Alike (perform op s) (perform op (s.withBuffers command staged)) := by
  unfold perform
  split
  · exact .refused _
  · cases op with
    | txWrite v => exact .of_place fun _ => txWrite_alike live v
    | rxRead => exact .of_place fun running => rxRead_alike (inv.protocolInv running) live
    | otherWrite => exact .of_place fun _ => Alike.next (s := s.deliver .done) live
    | otherRead => exact .of_place fun _ => Alike.next (s := s.deliver (.byte reservedRead)) live
    | store => exact .of_place fun running => storeAccess_alike (inv.protocolInv running) live _ _
    | load => exact .of_place fun running => loadAccess_alike (inv.protocolInv running) live _ _
    | construct =>
      exact .of_place fun _ => Alike.next (s := s.construct.deliver .done)
        ⟨fun _ lt => absurd lt (Nat.not_lt_zero _), (absurd rfl ·)⟩
    | deviceReset image => exact .of_place fun _ => deviceReset_alike live image

end

/-- Settles O42: the second state is the first with other dead bytes, and whatever the step performs answers both
alike. -/
theorem deadBytesAreNeverRead : Obligations.DeadBytesAreNeverRead := by
  intro s t inv _ same
  obtain ⟨command, staged, rfl, live⟩ := (sameLive_iff s t).1 same
  show Alike (step s) (step (s.withBuffers command staged))
  unfold step
  simp only [State.withBuffers]
  split
  · exact .inr (.inl ⟨_, rfl, rfl⟩)
  · split
    · exact Alike.next live
    · rename_i op rest _
      exact perform_alike (s := s.withPending rest) inv live op

end Sys2Proof.Machine
end

section
/-! PROOF. A whole command (41_reply_dispatch.md sections 2 to 5; 95_test_vectors.md section 1): six writes build the
frame byte by byte, the turnaround read enters `Ready`, and each read after it delivers the next byte of the documented
reply. -/

namespace Sys2Proof.Machine

open Literals

section
variable {s t : State} {rest : List HostOp}

/-! ## Runs -/

/-- A run goes on from where its first part ends. -/
theorem runFor_add {j : Nat} (k : Nat) (ran : runFor j s = .next t) : runFor (j + k) s = runFor k t := by
  induction j generalizing s with
  | zero => cases ran; rw [Nat.zero_add]
  | succ j ih =>
    unfold runFor at ran
    split at ran
    · rename_i stepped
      rw [Nat.succ_add, runFor_succ _ stepped]
      exact ih ran
    · exact nomatch ran
    · exact nomatch ran

/-- Every state of a run meets the invariant if the first one does. -/
theorem runFor_inv {k : Nat} (inv : s.Inv) (ran : runFor k s = .next t) : t.Inv := by
  induction k generalizing s with
  | zero => cases ran; exact inv
  | succ k ih =>
    unfold runFor at ran
    split at ran
    · rename_i stepped
      exact ih (stepKeepsTheInvariant s _ inv stepped) ran
    · exact nomatch ran
    · exact nomatch ran

/-! ## The frame -/

/-- The bytes of the frame that have been written, the live bytes of the buffer (R22). -/
def State.received (s : State) : List Byte := s.commandBuffer.toList.take s.commandLength.val

theorem take_succ_set {α : Type} {l : List α} {n : Nat} (v : α) (lt : n < l.length) :
    (l.set n v).take (n + 1) = l.take n ++ [v] := by
  rw [List.take_add_one, List.take_set_of_le (Nat.le_refl n), List.getElem?_set_self lt]
  rfl

theorem State.received_beginFrame (s : State) (v : Byte) (c : CardState) : (s.beginFrame v c).received = [v] := by
  simp only [State.received, State.beginFrame_commandBuffer, State.beginFrame_commandLength, Vector.toList_set]
  exact take_succ_set v (by simp)

theorem State.received_appendByte (s : State) (v : Byte) (room : s.commandLength.val + 1 < 32) :
    (s.appendByte v room).received = s.received ++ [v] := by
  simp only [State.received, State.appendByte_commandBuffer, State.appendByte_commandLength, Vector.toList_set]
  exact take_succ_set v (by simp)

/-- Six bytes received are the stored frame. -/
theorem State.storedFrame_eq_received (full : s.commandLength.val = 6) : s.storedFrame = s.received := by
  simp [State.received, full, State.storedFrame, List.take_add_one]
  rfl

/-- `s` after `n` bytes of a frame have been written. -/
def State.written (s : State) (command : Vector Byte Config.cmdBufBytes) (length : Fin 32)
    (rest : List HostOp) (n : Nat) : State :=
  { s with
    commandBuffer := command, commandLength := length, pending := rest
    delivered := List.replicate n .done ++ s.delivered }

/-- The bytes written into an open frame are appended one by one, and nothing else changes. -/
theorem runFor_appends (bytes : List Byte) (healthy : s.fault = none) (running : s.lifecycle = .running)
    (recv : s.state.isReceiving = true) (fits : s.commandLength.val + bytes.length ≤ 6)
    (waiting : s.pending = bytes.map .txWrite ++ rest) : ∃ command length,
      runFor bytes.length s = .next (s.written command length rest bytes.length) ∧
      length.val = s.commandLength.val + bytes.length ∧ command.toList.take length.val = s.received ++ bytes := by
  induction bytes generalizing s with
  | nil => subst waiting; exact ⟨s.commandBuffer, s.commandLength, rfl, rfl, (List.append_nil _).symm⟩
  | cons b bytes ih =>
    rw [List.length_cons] at fits
    have room : s.commandLength.val + 1 < 32 := by omega
    have next : s.Next (.txWrite b) (bytes.map .txWrite ++ rest) := ⟨healthy, running, waiting⟩
    obtain ⟨command, length, ran, counted, received⟩ :=
      ih (s := (s.appendByte b room).after (bytes.map .txWrite ++ rest) .done) healthy running recv
        (by simp; omega) rfl
    refine ⟨command, length, ?_, counted.trans (by simp; omega), received.trans ?_⟩
    · rw [List.length_cons, runFor_succ _ (step_append next recv (by omega)), ran]
      simp only [State.written, List.replicate_succ', List.append_assoc]
      rfl
    · exact (congrArg (· ++ bytes) (s.received_appendByte b room)).trans (List.append_assoc _ _ _)

/-- The six writes of a command, from outside a frame with no reply partly served: the block receives, and holds the
encoding of the command. -/
theorem runFor_frame {i : Instr} (notIdle : i ≠ .idle) (healthy : s.fault = none) (running : s.lifecycle = .running)
    (open_ : s.state.isReceiving = false) (quiet : s.replyActive = false)
    (waiting : s.pending = (encode i).map .txWrite ++ rest) : ∃ c command length,
      runFor 6 s = .next { s.written command length rest 6 with state := c } ∧ c.isReceiving = true ∧
      length.val = 6 ∧ command.toList.take 6 = encode i := by
  obtain ⟨op, tail, encoded, mem, five⟩ : ∃ op tail, encode i = op :: tail ∧ op ∈ opcodes ∧ tail.length = 5 := by
    obtain ⟨op, arg, trailer, framed, encoded⟩ := exists_frame_of_ne_idle notIdle
    exact ⟨op, _, encoded, frameInstr_mem framed, rfl⟩
  obtain ⟨c, recv⟩ := exists_recvState mem
  rw [encoded] at waiting ⊢
  have next : s.Next (.txWrite op) (tail.map .txWrite ++ rest) := ⟨healthy, running, waiting⟩
  obtain ⟨command, length, ran, counted, received⟩ := runFor_appends tail
    (s := (s.beginFrame op c).after (tail.map .txWrite ++ rest) .done) (rest := rest) healthy running
    (recvState_isReceiving recv) (by simp [five]) rfl
  have full : length.val = 6 := counted.trans (by simp [five])
  refine ⟨c, command, length, ?_, recvState_isReceiving recv, full, ?_⟩
  · rw [five] at ran
    exact (runFor_succ 5 (step_begin next open_ recv quiet)).trans ran
  · rw [full] at received
    exact received.trans (congrArg (· ++ tail) (s.received_beginFrame op c))

/-! ## The reply -/

/-- How many bytes of the reply of `i` the cursors say have been served. -/
def State.served (s : State) : Instr → Nat
  | .cmd8 _ _ => s.cmd8ReplyIndex.val
  | .cmd58 _ _ => s.cmd58ReplyIndex.val
  | .cmd17 _ _ =>
    match s.blockReadIndex with
    | none => 0
    | some k => k.val + 1
  | .cmd0 _ _ | .cmd16 _ _ | .acmd41 _ _ | .cmd55 _ _ | .idle => 0

/-- The latency calls of the first read of a reply. -/
def callsOf : Instr → List Nat
  | .cmd17 _ _ => [30]
  | .cmd0 _ _ | .cmd8 _ _ | .cmd16 _ _ | .acmd41 _ _ | .cmd55 _ _ | .cmd58 _ _ | .idle => []

/-- No cursor off its rest, no byte served. -/
theorem served_of_quiet (quiet : s.replyActive = false) (i : Instr) : s.served i = 0 := by
  obtain ⟨cmd8, cmd58, block⟩ := (replyActive_eq_false_iff s).1 quiet
  cases i <;> simp [State.served, cmd8, cmd58, block]

/-- Byte `k + 1` of the reply of a CMD17 is byte `k` of its block. -/
theorem replyOf_cmd17_succ (m : Memory) (arg : Argument) (trailer : Byte) {k : Nat} (lt : k < 512) :
    (replyOf m (.cmd17 arg trailer))[k + 1]? = some (m.byteAt (arg.toNat * 512 + k)) := by
  simp [replyOf, Memory.block, lt]

/-- While a block is served, the byte after the cursor is the block's (I-f). -/
theorem State.ProtocolInv.staged {k : Fin 513} (inv : s.ProtocolInv) (at_ : s.blockReadIndex = some k)
    (lt : k.val < 512) :
    s.staging[k.val + 1]'(Nat.succ_lt_succ lt) = s.backingStore.byteAt (s.storedArgument.toNat * 512 + k.val) := by
  obtain ⟨-, -, -, -, -, data⟩ := inv.blockCursor (by simp [at_])
  simpa only [Nat.add_comm 1] using data ⟨k.val, lt⟩

/-- The tables of the model are the documented replies. -/
theorem replyOf_cmd8_getElem? (m : Memory) (arg : Argument) (trailer : Byte) {k : Nat} (lt : k < 5) :
    (replyOf m (.cmd8 arg trailer))[k]? = some cmd8Reply[k] :=
  (congrArg some (cmd8Reply_getElem ⟨k, lt⟩)).symm ▸ List.getElem?_eq_getElem lt

theorem replyOf_cmd58_getElem? (m : Memory) (arg : Argument) (trailer : Byte) {k : Nat} (lt : k < 5) :
    (replyOf m (.cmd58 arg trailer))[k]? = some cmd58Reply[k] :=
  (congrArg some (cmd58Reply_getElem ⟨k, lt⟩)).symm ▸ List.getElem?_eq_getElem lt

theorem replyOf_cmd17_length (m : Memory) (arg : Argument) (trailer : Byte) :
    (replyOf m (.cmd17 arg trailer)).length = 513 := by simp [replyOf, Memory.block]

/-- A read of a reply delivers the byte after the ones served; it advances the count in `Ready`, or it was the last one
and the block is in `Idle`. The first one makes the latency calls of the command. -/
structure ServesNext (i : Instr) (s t : State) : Prop where
  fault_eq : t.fault = s.fault
  byte : ∃ b, (replyOf s.backingStore i)[s.served i]? = some b ∧ t.delivered = .byte b :: s.delivered
  place : (t.state = s.state ∧ t.served i = s.served i + 1 ∧ s.served i + 1 < (replyOf s.backingStore i).length) ∨
    (t.state = .idle ∧ (replyOf s.backingStore i).length = s.served i + 1)
  calls : t.latencyCalls = if s.served i = 0 then callsOf i ++ s.latencyCalls else s.latencyCalls

theorem ExecStep.servesNext {i : Instr} (run : ExecStep i s t) (inv : s.ProtocolInv)
    (stored : frameInstr s.storedOpcode s.storedArgument s.storedTrailer = some i)
    (inStore : ∀ arg trailer, i = .cmd17 arg trailer → arg.toNat ≤ 8191) : ServesNext i s t := by
  cases run with
  | filler => exact nomatch frameInstr_cases stored
  | cmd0 | cmd16 | cmd55 | acmd41 => exact ⟨rfl, ⟨_, rfl, rfl⟩, .inr ⟨rfl, rfl⟩, rfl⟩
  | cmd8Mid _ _ _ lt =>
    exact ⟨rfl, ⟨_, replyOf_cmd8_getElem? _ _ _ (Nat.lt_succ_of_lt lt), rfl⟩, .inl ⟨rfl, rfl, Nat.succ_lt_succ lt⟩,
      (ite_self _).symm⟩
  | cmd58Mid _ _ _ lt =>
    exact ⟨rfl, ⟨_, replyOf_cmd58_getElem? _ _ _ (Nat.lt_succ_of_lt lt), rfl⟩, .inl ⟨rfl, rfl, Nat.succ_lt_succ lt⟩,
      (ite_self _).symm⟩
  | cmd8Last a r _ last =>
    have served : s.served (.cmd8 a r) = 4 := last
    exact ⟨rfl, ⟨_, by rw [served]; rfl, rfl⟩, .inr ⟨rfl, by rw [served]; rfl⟩, (ite_self _).symm⟩
  | cmd58Last a r _ last =>
    have served : s.served (.cmd58 a r) = 4 := last
    exact ⟨rfl, ⟨_, by rw [served]; rfl, rfl⟩, .inr ⟨rfl, by rw [served]; rfl⟩, (ite_self _).symm⟩
  | blockFirst a r _ atRest =>
    have served : s.served (.cmd17 a r) = 0 := by simp only [State.served, atRest]
    rw [s.serving_eq]
    exact ⟨s.serving_fault _, ⟨_, by rw [served]; rfl, s.serving_delivered _⟩,
      .inl ⟨s.serving_state _, by rw [served]; rfl, by rw [served, replyOf_cmd17_length]; decide⟩,
      by rw [if_pos served]; rfl⟩
  | blockOut _ _ _ _ outside => exact absurd (inStore _ _ rfl) (Nat.not_le.2 outside)
  | blockMid a r _ k at_ lt =>
    obtain ⟨-, rfl⟩ := frameInstr_eq_cmd17 stored
    have served : s.served (.cmd17 s.storedArgument r) = k.val + 1 := by simp only [State.served, at_]
    refine ⟨rfl, ⟨_, ?_, rfl⟩, .inl ⟨rfl, by rw [served]; rfl, by rw [served, replyOf_cmd17_length]; omega⟩,
      by rw [served]; rfl⟩
    rw [served, replyOf_cmd17_succ _ _ _ (by omega), inv.staged at_ (by omega)]
  | blockLast a r _ k at_ last =>
    obtain ⟨-, rfl⟩ := frameInstr_eq_cmd17 stored
    have served : s.served (.cmd17 s.storedArgument r) = k.val + 1 := by simp only [State.served, at_]
    refine ⟨rfl, ⟨_, ?_, rfl⟩, .inr ⟨rfl, by rw [served, replyOf_cmd17_length]; omega⟩, by rw [served]; rfl⟩
    have byte := inv.staged at_ (by omega)
    simp only [last] at byte
    rw [served, replyOf_cmd17_succ _ _ _ (by omega), byte]

/-- In service, with `bytes` of the reply of `i` still to be read: in `Ready` the bytes after those served, in `Idle`
none. The first read makes the latency calls of the command on top of `calls`. -/
structure Replying (i : Instr) (calls : List Nat) (bytes : List Byte) (s : State) : Prop where
  inv : s.Inv
  healthy : s.fault = none
  running : s.lifecycle = .running
  place : (s.state = .ready ∧ frameInstr s.storedOpcode s.storedArgument s.storedTrailer = some i ∧
      s.served i < (replyOf s.backingStore i).length ∧ bytes = (replyOf s.backingStore i).drop (s.served i) ∧
      s.latencyCalls = if s.served i = 0 then calls else callsOf i ++ calls) ∨
    (s.state = .idle ∧ bytes = [] ∧ s.latencyCalls = callsOf i ++ calls)

/-- The command of the stored frame is the same after it has run. -/
theorem ExecStep.frameInstr_eq {i j : Instr} (run : ExecStep i s t) :
    frameInstr t.storedOpcode t.storedArgument t.storedTrailer = some j ↔
      frameInstr s.storedOpcode s.storedArgument s.storedTrailer = some j := by
  simp only [State.storedOpcode, State.storedArgument, State.storedTrailer, run.commandBuffer_eq]

theorem getElem?_and_drop_of_cons {α : Type} {l bytes : List α} {n : Nat} {b : α} (left : b :: bytes = l.drop n) :
    l[n]? = some b ∧ bytes = l.drop (n + 1) := by
  constructor
  · rw [← Nat.add_zero n, ← List.getElem?_drop, ← left]
    rfl
  · rw [← List.drop_drop, ← left]
    rfl

/-- A read delivers the first of the bytes still to be read. -/
theorem Replying.read {i : Instr} {calls : List Nat} {b : Byte} {bytes : List Byte}
    (inStore : ∀ arg trailer, i = .cmd17 arg trailer → arg.toNat ≤ 8191) (replying : Replying i calls (b :: bytes) s)
    (waiting : s.pending = .rxRead :: rest) : ∃ t, step s = .next t ∧ Replying i calls bytes t ∧
      t.pending = rest ∧ t.backingStore = s.backingStore ∧ t.delivered = .byte b :: s.delivered := by
  obtain ⟨inv, healthy, running, ⟨ready, stored, -, left, called⟩ | ⟨-, none_, -⟩⟩ := replying
  case inr => exact nomatch none_
  have next : s.Next .rxRead rest := ⟨healthy, running, waiting⟩
  obtain ⟨t, answered⟩ := exec_answers (s := s.withPending rest) (inv.protocolInv running) i
  have stepped : step s = .next t :=
    (step_register next rfl).trans ((rxRead_dispatch (s := s.withPending rest) ready stored).trans answered)
  have run := exec_next answered
  obtain ⟨fault, ⟨b', byte, delivered⟩, place, calls'⟩ := run.servesNext (inv.protocolInv running) stored inStore
  obtain ⟨first, others⟩ := getElem?_and_drop_of_cons left
  obtain rfl : b = b' := Option.some.inj (first.symm.trans byte)
  have madeCalls : t.latencyCalls = callsOf i ++ calls := by
    refine calls'.trans ?_
    change (if s.served i = 0 then callsOf i ++ s.latencyCalls else s.latencyCalls) = _
    rw [called]
    split <;> rfl
  refine ⟨t, stepped, ⟨stepKeepsTheInvariant s t inv stepped, fault.trans healthy, run.lifecycle_eq.trans running, ?_⟩,
    run.pending_eq, run.backingStore_eq, delivered⟩
  rw [run.backingStore_eq]
  obtain ⟨same, served, more⟩ | ⟨idle, length⟩ := place
  · rw [served]
    exact .inl ⟨same.trans ready, run.frameInstr_eq.2 stored, more, others,
      madeCalls.trans (if_neg (Nat.succ_ne_zero _)).symm⟩
  · exact .inr ⟨idle, others.trans (List.drop_eq_nil_of_le (Nat.le_of_eq length)), madeCalls⟩

/-- As many reads as there are bytes left deliver them in order, and end in `Idle`. -/
theorem runFor_reply {i : Instr} {calls : List Nat} (bytes : List Byte)
    (inStore : ∀ arg trailer, i = .cmd17 arg trailer → arg.toNat ≤ 8191) (replying : Replying i calls bytes s)
    (waiting : s.pending = List.replicate bytes.length .rxRead ++ rest) : ∃ t,
      runFor bytes.length s = .next t ∧ Replying i calls [] t ∧ t.pending = rest ∧
      t.backingStore = s.backingStore ∧ t.delivered = (bytes.map .byte).reverse ++ s.delivered := by
  induction bytes generalizing s with
  | nil => exact ⟨s, rfl, replying, waiting, rfl, rfl⟩
  | cons b bytes ih =>
    obtain ⟨u, stepped, replying', waiting', store, delivered⟩ := replying.read inStore waiting
    obtain ⟨t, ran, ended, left, store', delivered'⟩ := ih replying' waiting'
    refine ⟨t, (runFor_succ _ stepped).trans ran, ended, left, store'.trans store, ?_⟩
    rw [delivered', delivered, List.map_cons, List.reverse_cons, List.append_assoc]
    rfl

/-- A reply that has been read to its end leaves the block in `Idle`. -/
theorem Replying.idle {i : Instr} {calls : List Nat} {t : State} (ended : Replying i calls [] t) :
    t.state = .idle ∧ t.latencyCalls = callsOf i ++ calls := by
  obtain ⟨-, -, -, ⟨-, -, more, left, -⟩ | ⟨idle, -, called⟩⟩ := ended
  · exact absurd (List.drop_eq_nil_iff.1 left.symm) (Nat.not_le.2 more)
  · exact ⟨idle, called⟩

theorem replyOf_length_pos (m : Memory) {i : Instr} (notIdle : i ≠ .idle) : 0 < (replyOf m i).length := by
  cases i with
  | idle => exact absurd rfl notIdle
  | _ => exact Nat.succ_pos _

/-- The six writes of a command in `Idle` and the turnaround read leave the whole reply to be read. -/
theorem runFor_opening {i : Instr} (notIdle : i ≠ .idle) (inv : s.Inv) (finished : s.Finished)
    (waiting : s.pending = (encode i).map .txWrite ++ .rxRead :: rest) : ∃ u, runFor 7 s = .next u ∧
      Replying i s.latencyCalls (replyOf s.backingStore i) u ∧ u.pending = rest ∧ u.backingStore = s.backingStore ∧
      u.delivered = .byte 0xFF :: (List.replicate 6 .done ++ s.delivered) := by
  obtain ⟨running, idle, healthy⟩ := finished
  have quiet := ((inv.protocolInv running).idleAtRest idle).2
  obtain ⟨c, command, length, written, recv, full, frame⟩ :=
    runFor_frame notIdle healthy running (idle ▸ rfl) quiet waiting
  have turned := step_turnaround (s := { s.written command length (.rxRead :: rest) 6 with state := c }) (rest := rest)
    ⟨healthy, running, rfl⟩ (ne_ready_of_isReceiving recv) (Nat.le_of_eq full.symm)
  have opened := (runFor_add 1 written).trans (runFor_succ 0 turned)
  refine ⟨_, opened, ⟨runFor_inv inv opened, healthy, running, .inl ⟨rfl, ?stored, ?more, ?left, ?called⟩⟩,
    rfl, rfl, rfl⟩
  case stored =>
    have received := (congrArg (command.toList.take ·) full).trans (frame.trans (List.append_nil _).symm)
    refine frameInstr_of_decode_storedFrame ((congrArg decode ?_).trans (decodeOfEncodeIsTheInstruction i []))
    exact (State.storedFrame_eq_received full).trans received
  case more => exact (served_of_quiet quiet i).symm ▸ replyOf_length_pos s.backingStore notIdle
  case left => exact (congrArg (replyOf s.backingStore i).drop (served_of_quiet quiet i)).symm
  case called => exact (if_pos (served_of_quiet quiet i)).symm

end

/-- Settles O43: the frame is written, the turnaround read enters `Ready` with the whole reply still to be read, and the
reads deliver it. -/
theorem commandServesItsDocumentedReply : Obligations.CommandServesItsDocumentedReply := by
  intro i s rest notIdle inStore inv finished waiting
  rw [List.replicate_succ, List.append_assoc] at waiting
  obtain ⟨u, opened, replying, waiting', store, delivered⟩ := runFor_opening notIdle inv finished waiting
  obtain ⟨t, ran, ended, left, store', delivered'⟩ := runFor_reply _ inStore replying waiting'
  obtain ⟨idle, called⟩ := ended.idle
  obtain ⟨empty, quiet⟩ := (ended.inv.protocolInv ended.running).idleAtRest idle
  refine ⟨t, ?_, ⟨ended.running, idle, ended.healthy⟩, empty, quiet, left, store'.trans store, ?_, ?_, ?_⟩
  · rw [Nat.add_comm, runFor_add _ opened, ran]
  · rw [delivered', delivered]
  · rintro ⟨arg, trailer, rfl⟩
    exact called
  · intro other
    cases i with
    | cmd17 arg trailer => exact absurd rfl (other arg trailer)
    | _ => exact called

end Sys2Proof.Machine
end
